-- ==== Sys2Proof/Word.lean ====
section
/-! DEFINITION. The machine word: every register and every instruction is a 32-bit word (rule R5), bit 0 the least significant. -/

namespace Sys2Proof

/-- A 32-bit word: a register, a TLB word, an address or an instruction (rules R4, R5, R80). -/
abbrev Word := BitVec 32

end Sys2Proof
end

