-- ==== Sys2Proof/Config.lean ====
section
/-! DEFINITION. What the spec leaves open: the shape of a TLB entry, the moves of the TLB environment, the launch
parameters' types, and the free values. The two constants without a body are the model's only non-determinism: no proof
can see what they are, so every claim holds whatever they are. -/

namespace Sys2Proof

/-- A TLB entry as the registers expose it: the VA, PA and Attribute words (rule R54). -/
structure TlbEntry where
  va : Word
  pa : Word
  attr : Word
  deriving DecidableEq, Repr

/-- The 72 entries of the main TLB: 2 ways by 32 sets, and 8 lockable entries (rules R52, R53). -/
inductive MainSlot where
  | setAssoc (way : Fin 2) (set : Fin 32)
  | lockable (i : Fin 8)
  deriving DecidableEq, Repr

/-- Every TLB entry of the machine: two MicroTLBs of eleven entries each (rules R50, R51) and the main TLB. -/
inductive TlbSlot where
  | data (i : Fin 11)
  | instruction (i : Fin 11)
  | main (slot : MainSlot)
  deriving DecidableEq, Repr

/-- One step the TLB environment may try: put `entry` into `slot` (rule R72). -/
structure EnvMove where
  slot : TlbSlot
  entry : TlbEntry
  deriving DecidableEq, Repr

/-- `ENDIAN` (rules R4, R63): an open parameter that no rule reads. -/
inductive Endian where
  | little
  | big
  deriving DecidableEq, Repr

/-- `MAIN_TLB_TRANSFER` (rule R4, decision D7): which access moves data between the main TLB and `MTVA`, `MTPA`, `MTATTR`.
UNVERIFIED: the source does not say which; notes/assumptions/8.md. -/
inductive MainTlbTransfer where
  /-- The write of an Entry Register is the moment of transfer (rules R110, R111). -/
  | onEntryWrite
  /-- The Entry Registers latch a selector and `MTVA`, `MTPA`, `MTATTR` are windows on the selected entries (D7). -/
  | window
  deriving DecidableEq, Repr

/-- The `n`-th free word: what `draw_32()` answers at the draw numbered `n` (rule R7, decision D10).
DESIGN CHOICE, safe; notes/assumptions/5.md. -/
opaque Config.freeWord : Nat → Word

/-- What the TLB environment tries, in order, in the gap between two core steps that is numbered `n`: any finite list of
moves (rule R72, decision D13). DESIGN CHOICE, safe; notes/assumptions/6.md. -/
opaque Config.envMoves : Nat → List EnvMove

end Sys2Proof
end

