-- ==== Sys2Proof/Machine/Formats.lean ====
section
/-! DEFINITION. The formats of the words (rules R25 to R45): the fields of the VA, PA and Attribute words and of `TLBDBG`, and
the tables that give a field's value its meaning. The tables of sizes, region types and permissions are for reading an
entry (rules R136, R146); no rule acts on them but for the sets of legal values. -/

namespace Sys2Proof.Machine

/-! The VA word (rule R29). -/

/-- VPN, bits [31:10]. -/
def vpn (w : Word) : BitVec 22 := w.extractLsb' 10 22
/-- PROCESS, bits [9:0]: opaque (rule R30). -/
def processField (w : Word) : BitVec 10 := w.extractLsb' 0 10

/-! The PA word (rule R32). -/

/-- PPN, bits [31:10]. -/
def ppn (w : Word) : BitVec 22 := w.extractLsb' 10 22
/-- SZ, bits [9:6]. -/
def szField (w : Word) : BitVec 4 := w.extractLsb' 6 4
/-- XRGN, bits [5:4]. -/
def xrgnField (w : Word) : BitVec 2 := w.extractLsb' 4 2
/-- AP, bits [3:1]. -/
def apField (w : Word) : BitVec 3 := w.extractLsb' 1 3
/-- V, bit [0] (rule R37). -/
def validBit (w : Word) : Bool := w.getLsbD 0

/-! The Attribute word (rules R39, R146). -/

/-- AP3, bits [31:30]: the fourth subpage. -/
def ap3Field (w : Word) : BitVec 2 := w.extractLsb' 30 2
/-- AP2, bits [29:28]: the third subpage. -/
def ap2Field (w : Word) : BitVec 2 := w.extractLsb' 28 2
/-- AP1, bits [27:26]: the second subpage. -/
def ap1Field (w : Word) : BitVec 2 := w.extractLsb' 26 2
/-- SPV, bit [25]: the page or section supports subpages. -/
def spvBit (w : Word) : Bool := w.getLsbD 25
/-- Domain, bits [8:5]. -/
def domainField (w : Word) : BitVec 4 := w.extractLsb' 5 4
/-- XN, bit [4]. -/
def xnBit (w : Word) : Bool := w.getLsbD 4
/-- RGN, bits [3:1]. -/
def rgnField (w : Word) : BitVec 3 := w.extractLsb' 1 3
/-- S, bit [0]. -/
def sharedBit (w : Word) : Bool := w.getLsbD 0

/-! `TLBDBG` (rule R45): a bit set means "disabled". -/

/-- IMM, instruction main TLB match disabled. -/
def imm (d : BitVec 8) : Bool := d.getLsbD 7
/-- DMM, data main TLB match disabled. -/
def dmm (d : BitVec 8) : Bool := d.getLsbD 6
/-- IML, instruction main TLB load disabled. -/
def iml (d : BitVec 8) : Bool := d.getLsbD 5
/-- DML, data main TLB load disabled. -/
def dml (d : BitVec 8) : Bool := d.getLsbD 4
/-- IUM, Instruction MicroTLB match disabled. -/
def ium (d : BitVec 8) : Bool := d.getLsbD 3
/-- DUM, Data MicroTLB match disabled. -/
def dum (d : BitVec 8) : Bool := d.getLsbD 2
/-- IUL, Instruction MicroTLB load and flush disabled. -/
def iul (d : BitVec 8) : Bool := d.getLsbD 1
/-- DUL, Data MicroTLB load and flush disabled. -/
def dul (d : BitVec 8) : Bool := d.getLsbD 0

/-! Region sizes (rule R33). -/

/-- The region sizes of Table 3.165. -/
inductive RegionSize where
  /-- "1KB subpage (used by MicroTLB only)". -/
  | subpage1K
  /-- "4KB page". -/
  | page4K
  /-- "16KB subpage (used by MicroTLB only)". -/
  | subpage16K
  /-- "64KB page". -/
  | page64K
  /-- "1MB section (or part of 16MB supersection for MicroTLB)". -/
  | section1M
  /-- "16M Supersection (used by main TLB only)". -/
  | supersection16M
  deriving DecidableEq, Repr

/-- The region an SZ value names; every other value is Reserved (rule R33). -/
def regionSize? (sz : BitVec 4) : Option RegionSize :=
  if sz = 0b1111 then some .subpage1K
  else if sz = 0b1110 then some .page4K
  else if sz = 0b1100 then some .subpage16K
  else if sz = 0b1000 then some .page64K
  else if sz = 0b0000 then some .section1M
  else if sz = 0b0001 then some .supersection16M
  else none

/-- A region has 2 to this power bytes (rule R33). -/
def RegionSize.log2 : RegionSize → Nat
  | .subpage1K => 10
  | .page4K => 12
  | .subpage16K => 14
  | .page64K => 16
  | .section1M => 20
  | .supersection16M => 24

/-- The sizes legal in a main TLB word: `SZ_MAIN` (rule R33). -/
def RegionSize.legalInMain : RegionSize → Bool
  | .subpage1K => false
  | .page4K => true
  | .subpage16K => false
  | .page64K => true
  | .section1M => true
  | .supersection16M => true

/-- The sizes legal in a MicroTLB word (rule R33). -/
def RegionSize.legalInMicro : RegionSize → Bool
  | .subpage1K => true
  | .page4K => true
  | .subpage16K => true
  | .page64K => true
  | .section1M => true
  | .supersection16M => false

/-- `SZ_MAIN`, the values software may write to `MTPA.SZ` (rule R33). -/
def szMain (sz : BitVec 4) : Bool :=
  match regionSize? sz with
  | some r => r.legalInMain
  | none => false

/-- The address bits in [31:10] that a region of this size does not translate (rule R38, decision D12; UNVERIFIED,
notes/assumptions/19.md); for a reserved size all of [31:10]. -/
def untrans (sz : BitVec 4) : Word :=
  match regionSize? sz with
  | some .subpage1K => 0x00000000
  | some .page4K => 0x00000C00
  | some .subpage16K => 0x00003C00
  | some .page64K => 0x0000FC00
  | some .section1M => 0x000FFC00
  | some .supersection16M => 0x00FFFC00
  | none => 0xFFFFFC00

/-- The physical base address of the region a PA word maps (rule R136). -/
def physicalBase (w : Word) : Word := (w &&& 0xFFFFFC00) &&& ~~~untrans (szField w)

/-! Region types (rules R34, R42). -/

/-- The outer region types of XRGN. -/
inductive OuterRegion where
  /-- "Outer Noncachable". -/
  | noncachable
  /-- "Outer WB, Allocate On Write". -/
  | wbAllocateOnWrite
  /-- "Outer WT, No Allocate on Write". -/
  | wtNoAllocateOnWrite
  /-- "Outer WB, No Allocate on Write". -/
  | wbNoAllocateOnWrite
  deriving DecidableEq, Repr

/-- The XRGN table (rule R34): all four values are legal. -/
def outerRegion (xrgn : BitVec 2) : OuterRegion :=
  if xrgn = 0b00 then .noncachable
  else if xrgn = 0b01 then .wbAllocateOnWrite
  else if xrgn = 0b10 then .wtNoAllocateOnWrite
  else .wbNoAllocateOnWrite

/-- The region types of RGN. -/
inductive InnerRegion where
  /-- "Noncachable". -/
  | noncachable
  /-- "Strongly Ordered". -/
  | stronglyOrdered
  /-- "Device". -/
  | device
  /-- "Inner WT, No Allocate on Write". -/
  | wtNoAllocateOnWrite
  /-- "Inner WB, No Allocate on Write". -/
  | wbNoAllocateOnWrite
  deriving DecidableEq, Repr

/-- The RGN table (rule R42); b010, b100 and b101 are Reserved. -/
def innerRegion? (rgn : BitVec 3) : Option InnerRegion :=
  if rgn = 0b000 then some .noncachable
  else if rgn = 0b001 then some .stronglyOrdered
  else if rgn = 0b011 then some .device
  else if rgn = 0b110 then some .wtNoAllocateOnWrite
  else if rgn = 0b111 then some .wbNoAllocateOnWrite
  else none

/-- `RGN_LEGAL`, the values software may write to `MTATTR.RGN` (rule R42). -/
def rgnLegal (rgn : BitVec 3) : Bool := (innerRegion? rgn).isSome

/-! Access permissions (rules R35, R41). -/

/-- What one class of mode may do in a region. -/
inductive Access where
  | noAccess
  | readOnly
  | readWrite
  deriving DecidableEq, Repr

/-- Supervisor and User permissions. -/
structure Permissions where
  supervisor : Access
  user : Access
  deriving DecidableEq, Repr

/-- The AP table, bits [3:1] of the PA word (rule R35); b111 is Reserved. b100, "Domain fault encoded field", gives no
access to either. -/
def permissions? (ap : BitVec 3) : Option Permissions :=
  if ap = 0b000 then some ⟨.noAccess, .noAccess⟩
  else if ap = 0b001 then some ⟨.readWrite, .noAccess⟩
  else if ap = 0b010 then some ⟨.readWrite, .readOnly⟩
  else if ap = 0b011 then some ⟨.readWrite, .readWrite⟩
  else if ap = 0b100 then some ⟨.noAccess, .noAccess⟩
  else if ap = 0b101 then some ⟨.readOnly, .noAccess⟩
  else if ap = 0b110 then some ⟨.readOnly, .readOnly⟩
  else none

/-- The upper subpage table, the format of AP1, AP2 and AP3 with the CP15 bits S and R (rule R41); b00 with both set is
Unpredictable. -/
def subpagePermissions? (ap : BitVec 2) (sBit rBit : Bool) : Option Permissions :=
  if ap = 0b01 then some ⟨.readWrite, .noAccess⟩
  else if ap = 0b10 then some ⟨.readWrite, .readOnly⟩
  else if ap = 0b11 then some ⟨.readWrite, .readWrite⟩
  else
    match sBit, rBit with
    | false, false => some ⟨.noAccess, .noAccess⟩
    | true, false => some ⟨.readOnly, .noAccess⟩
    | false, true => some ⟨.readOnly, .readOnly⟩
    | true, true => none

end Sys2Proof.Machine
end

