-- ==== Sys2Proof/Syntax.lean ====
section
/-! DEFINITION. The instructions: the 28 forms of rule R85, each with its one operand `Rd`, and the fourteen registers they
reach with their place in the CP15 register space and their access rights. -/

namespace Sys2Proof

/-- The fourteen registers for MMU debug operations, by the spec's short names (rule R24). -/
inductive Cp15Reg where
  /-- Data MicroTLB Index Register. -/
  | dmidx
  /-- Instruction MicroTLB Index Register. -/
  | imidx
  /-- Read Main TLB Entry Register. -/
  | rmte
  /-- Write Main TLB Entry Register. -/
  | wmte
  /-- Data MicroTLB VA Register. -/
  | dmva
  /-- Instruction MicroTLB VA Register. -/
  | imva
  /-- Main TLB VA Register. -/
  | mtva
  /-- Data MicroTLB PA Register. -/
  | dmpa
  /-- Instruction MicroTLB PA Register. -/
  | impa
  /-- Main TLB PA Register. -/
  | mtpa
  /-- Data MicroTLB Attribute Register. -/
  | dmattr
  /-- Instruction MicroTLB Attribute Register. -/
  | imattr
  /-- Main TLB Attribute Register. -/
  | mtattr
  /-- TLB Debug Control Register. -/
  | tlbdbg
  deriving DecidableEq, Repr

/-- A location of the CP15 register space (rule R60). -/
structure Cp15Location where
  opcode1 : BitVec 3
  crn : BitVec 4
  crm : BitVec 4
  opcode2 : BitVec 3
  deriving DecidableEq, Repr

/-- Where each register stands (rule R24). -/
def Cp15Reg.location : Cp15Reg → Cp15Location
  | .dmidx => ⟨5, 15, 4, 0⟩
  | .imidx => ⟨5, 15, 4, 1⟩
  | .rmte => ⟨5, 15, 4, 2⟩
  | .wmte => ⟨5, 15, 4, 4⟩
  | .dmva => ⟨5, 15, 5, 0⟩
  | .imva => ⟨5, 15, 5, 1⟩
  | .mtva => ⟨5, 15, 5, 2⟩
  | .dmpa => ⟨5, 15, 6, 0⟩
  | .impa => ⟨5, 15, 6, 1⟩
  | .mtpa => ⟨5, 15, 6, 2⟩
  | .dmattr => ⟨5, 15, 7, 0⟩
  | .imattr => ⟨5, 15, 7, 1⟩
  | .mtattr => ⟨5, 15, 7, 2⟩
  | .tlbdbg => ⟨7, 15, 1, 0⟩

/-- The registers a privileged `MRC` reads; the two others are write-only (rule R47). -/
def Cp15Reg.privilegedRead : Cp15Reg → Bool
  | .dmidx => true
  | .imidx => true
  | .rmte => false
  | .wmte => false
  | .dmva => true
  | .imva => true
  | .mtva => true
  | .dmpa => true
  | .impa => true
  | .mtpa => true
  | .dmattr => true
  | .imattr => true
  | .mtattr => true
  | .tlbdbg => true

/-- The registers a privileged `MCR` writes; the six MicroTLB views are read-only (rule R47). -/
def Cp15Reg.privilegedWrite : Cp15Reg → Bool
  | .dmidx => true
  | .imidx => true
  | .rmte => true
  | .wmte => true
  | .dmva => false
  | .imva => false
  | .mtva => true
  | .dmpa => false
  | .impa => false
  | .mtpa => true
  | .dmattr => false
  | .imattr => false
  | .mtattr => true
  | .tlbdbg => true

/-- The 28 instruction forms, in the order of rule R85; `rd` is the four-bit field `Rd`. -/
inductive Instr where
  /-- Row 1: `MRC p15, 5, <Rd>, c15, c4, 0` (rule R100). -/
  | mrcDmidx (rd : Fin 16)
  /-- Row 2: `MCR p15, 5, <Rd>, c15, c4, 0` (rule R101). -/
  | mcrDmidx (rd : Fin 16)
  /-- Row 3: `MRC p15, 5, <Rd>, c15, c4, 1` (rule R102). -/
  | mrcImidx (rd : Fin 16)
  /-- Row 4: `MCR p15, 5, <Rd>, c15, c4, 1` (rule R103). -/
  | mcrImidx (rd : Fin 16)
  /-- Row 5: `MCR p15, 5, <Rd>, c15, c4, 2` (rule R110). -/
  | mcrRmte (rd : Fin 16)
  /-- Row 6: `MCR p15, 5, <Rd>, c15, c4, 4` (rule R111). -/
  | mcrWmte (rd : Fin 16)
  /-- Row 7: `MRC p15, 5, <Rd>, c15, c4, 2` (rule R112). -/
  | mrcRmte (rd : Fin 16)
  /-- Row 8: `MRC p15, 5, <Rd>, c15, c4, 4` (rule R113). -/
  | mrcWmte (rd : Fin 16)
  /-- Row 9: `MRC p15, 5, <Rd>, c15, c5, 0` (rule R120). -/
  | mrcDmva (rd : Fin 16)
  /-- Row 10: `MRC p15, 5, <Rd>, c15, c5, 1` (rule R121). -/
  | mrcImva (rd : Fin 16)
  /-- Row 11: `MRC p15, 5, <Rd>, c15, c5, 2` (rule R122). -/
  | mrcMtva (rd : Fin 16)
  /-- Row 12: `MCR p15, 5, <Rd>, c15, c5, 2` (rule R123). -/
  | mcrMtva (rd : Fin 16)
  /-- Row 13: `MCR p15, 5, <Rd>, c15, c5, 0` (rule R124). -/
  | mcrDmva (rd : Fin 16)
  /-- Row 14: `MCR p15, 5, <Rd>, c15, c5, 1` (rule R125). -/
  | mcrImva (rd : Fin 16)
  /-- Row 15: `MRC p15, 5, <Rd>, c15, c6, 0` (rule R130). -/
  | mrcDmpa (rd : Fin 16)
  /-- Row 16: `MRC p15, 5, <Rd>, c15, c6, 1` (rule R131). -/
  | mrcImpa (rd : Fin 16)
  /-- Row 17: `MRC p15, 5, <Rd>, c15, c6, 2` (rule R132). -/
  | mrcMtpa (rd : Fin 16)
  /-- Row 18: `MCR p15, 5, <Rd>, c15, c6, 2` (rule R133). -/
  | mcrMtpa (rd : Fin 16)
  /-- Row 19: `MCR p15, 5, <Rd>, c15, c6, 0` (rule R134). -/
  | mcrDmpa (rd : Fin 16)
  /-- Row 20: `MCR p15, 5, <Rd>, c15, c6, 1` (rule R135). -/
  | mcrImpa (rd : Fin 16)
  /-- Row 21: `MRC p15, 5, <Rd>, c15, c7, 0` (rule R140). -/
  | mrcDmattr (rd : Fin 16)
  /-- Row 22: `MRC p15, 5, <Rd>, c15, c7, 1` (rule R141). -/
  | mrcImattr (rd : Fin 16)
  /-- Row 23: `MRC p15, 5, <Rd>, c15, c7, 2` (rule R142). -/
  | mrcMtattr (rd : Fin 16)
  /-- Row 24: `MCR p15, 5, <Rd>, c15, c7, 2` (rule R143). -/
  | mcrMtattr (rd : Fin 16)
  /-- Row 25: `MCR p15, 5, <Rd>, c15, c7, 0` (rule R144). -/
  | mcrDmattr (rd : Fin 16)
  /-- Row 26: `MCR p15, 5, <Rd>, c15, c7, 1` (rule R145). -/
  | mcrImattr (rd : Fin 16)
  /-- Row 27: `MRC p15, 7, <Rd>, c15, c1, 0` (rule R150). -/
  | mrcTlbdbg (rd : Fin 16)
  /-- Row 28: `MCR p15, 7, <Rd>, c15, c1, 0` (rule R151). -/
  | mcrTlbdbg (rd : Fin 16)
  deriving DecidableEq, Repr

/-- The field `Rd` of a form (rule R84). -/
def Instr.rd : Instr → Fin 16
  | .mrcDmidx rd => rd
  | .mcrDmidx rd => rd
  | .mrcImidx rd => rd
  | .mcrImidx rd => rd
  | .mcrRmte rd => rd
  | .mcrWmte rd => rd
  | .mrcRmte rd => rd
  | .mrcWmte rd => rd
  | .mrcDmva rd => rd
  | .mrcImva rd => rd
  | .mrcMtva rd => rd
  | .mcrMtva rd => rd
  | .mcrDmva rd => rd
  | .mcrImva rd => rd
  | .mrcDmpa rd => rd
  | .mrcImpa rd => rd
  | .mrcMtpa rd => rd
  | .mcrMtpa rd => rd
  | .mcrDmpa rd => rd
  | .mcrImpa rd => rd
  | .mrcDmattr rd => rd
  | .mrcImattr rd => rd
  | .mrcMtattr rd => rd
  | .mcrMtattr rd => rd
  | .mcrDmattr rd => rd
  | .mcrImattr rd => rd
  | .mrcTlbdbg rd => rd
  | .mcrTlbdbg rd => rd

/-- The register a form addresses (rule R85). -/
def Instr.register : Instr → Cp15Reg
  | .mrcDmidx _ => .dmidx
  | .mcrDmidx _ => .dmidx
  | .mrcImidx _ => .imidx
  | .mcrImidx _ => .imidx
  | .mcrRmte _ => .rmte
  | .mcrWmte _ => .wmte
  | .mrcRmte _ => .rmte
  | .mrcWmte _ => .wmte
  | .mrcDmva _ => .dmva
  | .mrcImva _ => .imva
  | .mrcMtva _ => .mtva
  | .mcrMtva _ => .mtva
  | .mcrDmva _ => .dmva
  | .mcrImva _ => .imva
  | .mrcDmpa _ => .dmpa
  | .mrcImpa _ => .impa
  | .mrcMtpa _ => .mtpa
  | .mcrMtpa _ => .mtpa
  | .mcrDmpa _ => .dmpa
  | .mcrImpa _ => .impa
  | .mrcDmattr _ => .dmattr
  | .mrcImattr _ => .imattr
  | .mrcMtattr _ => .mtattr
  | .mcrMtattr _ => .mtattr
  | .mcrDmattr _ => .dmattr
  | .mcrImattr _ => .imattr
  | .mrcTlbdbg _ => .tlbdbg
  | .mcrTlbdbg _ => .tlbdbg

/-- The direction bit `L`: true for `MRC`, a read, false for `MCR`, a write (rule R82). -/
def Instr.isRead : Instr → Bool
  | .mrcDmidx _ => true
  | .mcrDmidx _ => false
  | .mrcImidx _ => true
  | .mcrImidx _ => false
  | .mcrRmte _ => false
  | .mcrWmte _ => false
  | .mrcRmte _ => true
  | .mrcWmte _ => true
  | .mrcDmva _ => true
  | .mrcImva _ => true
  | .mrcMtva _ => true
  | .mcrMtva _ => false
  | .mcrDmva _ => false
  | .mcrImva _ => false
  | .mrcDmpa _ => true
  | .mrcImpa _ => true
  | .mrcMtpa _ => true
  | .mcrMtpa _ => false
  | .mcrDmpa _ => false
  | .mcrImpa _ => false
  | .mrcDmattr _ => true
  | .mrcImattr _ => true
  | .mrcMtattr _ => true
  | .mcrMtattr _ => false
  | .mcrDmattr _ => false
  | .mcrImattr _ => false
  | .mrcTlbdbg _ => true
  | .mcrTlbdbg _ => false

/-- The forms marked UND in rule R85: the register does not allow this direction in any mode (rules R47, R90). -/
def Instr.alwaysUndefined (i : Instr) : Bool :=
  if i.isRead then !i.register.privilegedRead else !i.register.privilegedWrite

end Sys2Proof
end

