-- ==== Sys2Proof/WellFormed.lean ====
section
/-! DEFINITION. Which instruction terms stand for instructions of the spec. -/

namespace Sys2Proof

/-- A form's operand is well formed when `Rd` is 0 to 14: `Rd = 15` names the program counter and is refused in both
directions (rules R20, R80; notes/assumptions/22.md). It is the only check: every other field is fixed by the row. -/
def Instr.wellFormed (i : Instr) : Bool := i.rd.val < 15

end Sys2Proof
end

