-- ==== Sys2Proof/Decode.lean ====
section
/-! DEFINITION. Decoding and encoding (rules R80 to R88): the opcode map of the 28 forms as match words, the decoder that
selects a row under the mask 0xFFFF0FFF, rejecting by name, and the encoder, written from the bit layout of the format. -/

namespace Sys2Proof

/-- Why a word is no instruction of this hardware. -/
inductive DecodeError where
  /-- The word selects no row of rule R85 (rule R88). -/
  | unlisted
  /-- The word agrees with a row in bits [27:0] and its condition is not "always" (rule R83). -/
  | condNotAlways
  /-- The word selects a row with `Rd = 15` (rules R20, R86). -/
  | rdIsPc
  deriving DecidableEq, Repr

/-- The mask of every row: all bits but `Rd` (rule R85). -/
def rowMask : Word := 0xFFFF0FFF

/-- The opcode map (rule R85): each row's match word and the form it selects. UNVERIFIED by the spec's source (K1), which
gives operand values and not words; notes/assumptions/15.md. -/
def opcodeMap : List (Word × (Fin 16 → Instr)) :=
  [
   (0xEEBF0F14, Instr.mrcDmidx),
   (0xEEAF0F14, Instr.mcrDmidx),
   (0xEEBF0F34, Instr.mrcImidx),
   (0xEEAF0F34, Instr.mcrImidx),
   (0xEEAF0F54, Instr.mcrRmte),
   (0xEEAF0F94, Instr.mcrWmte),
   (0xEEBF0F54, Instr.mrcRmte),
   (0xEEBF0F94, Instr.mrcWmte),
   (0xEEBF0F15, Instr.mrcDmva),
   (0xEEBF0F35, Instr.mrcImva),
   (0xEEBF0F55, Instr.mrcMtva),
   (0xEEAF0F55, Instr.mcrMtva),
   (0xEEAF0F15, Instr.mcrDmva),
   (0xEEAF0F35, Instr.mcrImva),
   (0xEEBF0F16, Instr.mrcDmpa),
   (0xEEBF0F36, Instr.mrcImpa),
   (0xEEBF0F56, Instr.mrcMtpa),
   (0xEEAF0F56, Instr.mcrMtpa),
   (0xEEAF0F16, Instr.mcrDmpa),
   (0xEEAF0F36, Instr.mcrImpa),
   (0xEEBF0F17, Instr.mrcDmattr),
   (0xEEBF0F37, Instr.mrcImattr),
   (0xEEBF0F57, Instr.mrcMtattr),
   (0xEEAF0F57, Instr.mcrMtattr),
   (0xEEAF0F17, Instr.mcrDmattr),
   (0xEEAF0F37, Instr.mcrImattr),
   (0xEEFF0F11, Instr.mrcTlbdbg),
   (0xEEEF0F11, Instr.mcrTlbdbg)]

/-- The field `Rd`, bits [15:12] (rule R80). -/
def rdField (w : Word) : Fin 16 := (w.extractLsb' 12 4).toFin

/-- Decode a word: the row it selects, its `Rd` not 15 (rules R83, R85, R86, R88). -/
def decode (w : Word) : Except DecodeError Instr :=
  match opcodeMap.find? (fun row => w &&& rowMask == row.1) with
  | some row => if rdField w = 15 then .error .rdIsPc else .ok (row.2 (rdField w))
  | none =>
    if opcodeMap.any (fun row => w &&& (rowMask &&& 0x0FFFFFFF) == row.1 &&& 0x0FFFFFFF) then .error .condNotAlways
    else .error .unlisted

/-- The bit `L` of the format: 1 reads, 0 writes (rules R80, R82). -/
def directionBit (i : Instr) : BitVec 1 := if i.isRead then 1 else 0

/-- The word of a form, field by field from bit 31 down: `cond`, b1110, `Opcode_1`, `L`, `CRn`, `Rd`, `cp_num`, `Opcode_2`,
b1, `CRm` (rule R80). -/
def encode (i : Instr) : Word :=
  let loc := i.register.location
  (0xE#4 ++ 0xE#4 ++ loc.opcode1 ++ directionBit i ++ loc.crn ++ BitVec.ofFin (w := 4) i.rd ++ 0xF#4 ++ loc.opcode2 ++ 1#1 ++ loc.crm : BitVec 32)

/-- What the decoder reads from an instruction of `nbits` bits whose value is `w`: the format is one 32-bit word, bits at
and above `nbits` being zero. -/
def decodeTableWord (nbits w : Nat) : Option Instr :=
  match decode (BitVec.ofNat 32 (w % 2 ^ nbits)) with
  | .ok i => some i
  | .error _ => none

end Sys2Proof
end

