-- ==== Sys2Proof/Machine/State.lean ====
section
/-! DEFINITION. The state of the machine as plain data: everything the spec gives it (rules R11, R20 to R24, R45, R50 to R54),
the launch parameters it runs under (rules R4, R11), the faults and refusals a step can end in, and the state after reset. -/

namespace Sys2Proof.Machine

/-- The program: instruction words by address (rule R62), addresses strictly rising. -/
abbrev Program := List (Nat × Word)

/-- The canonical form of a program: addresses strictly rising, each a multiple of 4 below 2^32 (rules R62, R64). -/
abbrev Program.Wf (p : Program) : Prop :=
  p.Pairwise (fun a b => a.1 < b.1) ∧ ∀ c ∈ p, c.1 % 4 = 0 ∧ c.1 < 2 ^ 32

/-- The parameters of the step relation, constant over a run (rules R4, R11). They stand in the state because a step takes
nothing else; notes/assumptions/3.md. -/
structure Launch where
  /-- `Priv`: the core is in a privileged mode (rule R23). -/
  priv : Bool
  /-- The program text (rule R62). -/
  program : Program
  /-- `END_PC`: the address at which the run ends (rule R199). -/
  endPc : Word
  /-- `is_global` as plain data: the PROCESS values on which it is true (rules R30, R43; notes/assumptions/18.md). -/
  globalProcesses : List (BitVec 10)
  /-- `ENDIAN`, read by no rule (rule R63). -/
  endian : Endian
  /-- `MAIN_TLB_TRANSFER` (decision D7). -/
  transfer : MainTlbTransfer
  deriving DecidableEq, Repr

/-- The TLBs the registers expose (rules R50 to R53). -/
structure Tlbs where
  /-- `DTLBu[0..10]`. -/
  data : Vector TlbEntry 11
  /-- `ITLBu[0..10]`. -/
  instruction : Vector TlbEntry 11
  /-- `MTLB_SA[way][set]`. -/
  setAssoc : Vector (Vector TlbEntry 32) 2
  /-- `MTLB_LK[0..7]`. -/
  lockable : Vector TlbEntry 8
  deriving DecidableEq, Repr

/-- The machine's state. -/
structure State where
  /-- Core registers `x[0]` to `x[14]` (rule R20). -/
  x : Vector Word 15
  /-- The address of the instruction being executed (rule R21). -/
  pc : Word
  /-- `DMIDX.Index` (rule R25). -/
  dmidx : BitVec 4
  /-- `IMIDX.Index` (rule R25). -/
  imidx : BitVec 4
  /-- The holding register `MTVA` (rule R31). -/
  mtva : Word
  /-- The holding register `MTPA` (rule R32). -/
  mtpa : Word
  /-- The holding register `MTATTR` (rule R39). -/
  mtattr : Word
  /-- `TLBDBG[7:0]`: IMM, DMM, IML, DML, IUM, DUM, IUL, DUL from bit 7 down (rule R45). -/
  tlbdbg : BitVec 8
  /-- The TLBs (rules R50 to R53). -/
  tlbs : Tlbs
  /-- The selector last written to `RMTE`; used under `window` only (rule R28, decision D7). -/
  rmteSel : MainSlot
  /-- The selector last written to `WMTE`; used under `window` only (rule R28, decision D7). -/
  wmteSel : MainSlot
  /-- The MODEL's own counter: how many free values have been drawn (notes/assumptions/5.md). -/
  draws : Nat
  /-- The launch parameters (rule R11). -/
  launch : Launch
  deriving DecidableEq, Repr

/-- The one fault. -/
inductive Fault where
  /-- The Undefined exception, `Fault(Undefined, instr, pc)`: raised by every form in User mode, by a privileged read of a
  write-only register and by a privileged write of a read-only register (rules R160, R166). Terminal; no state is written
  (rule R163). Safe: nothing is claimed past it; notes/assumptions/7.md. -/
  | undefined (instr pc : Word)
  deriving DecidableEq, Repr

/-- Why a step has no meaning. Every one errs toward unprovable: safe. -/
inductive Refusal where
  /-- Raised by an arm of `exec` whose instruction has no meaning yet; no arm does. Safe. -/
  | notModelled (mnemonic : String)
  /-- Raised by the step when `pc = END_PC`: the run has ended (rule R199; notes/assumptions/16.md). Safe. -/
  | runEnded
  /-- Raised by the step when `pc` is not a multiple of 4 (rules R21, R64), whether or not the program holds a word
  there (notes/assumptions/26.md). Safe. -/
  | pcMisaligned
  /-- Raised by the step when the program holds no word at `pc` (rules R62, R199). Safe. -/
  | outsideProgram
  /-- Raised by decoding a word that selects no row (rule R88). Safe. -/
  | unlisted
  /-- Raised by decoding a row's word under a condition other than "always" (rule R83). Safe. -/
  | condNotAlways
  /-- `Rd_is_pc`: raised by decoding, and by every meaning, when `Rd = 15` (rules R20, R86). Safe. -/
  | rdIsPc
  /-- Raised by a completing form whose `pc + 4` would pass 0xFFFFFFFC (rule R21). Safe. -/
  | pcPastTop
  /-- `SBZ_DMIDX` (rule R101). Safe. -/
  | sbzDmidx
  /-- `SBZ_IMIDX` (rule R103). Safe. -/
  | sbzImidx
  /-- `SBZ_RMTE` (rule R110). Safe. -/
  | sbzRmte
  /-- `SBZ_RMTE_LK` (rule R110). Safe. -/
  | sbzRmteLk
  /-- `SBZ_WMTE` (rule R111). Safe. -/
  | sbzWmte
  /-- `SBZ_WMTE_LK` (rule R111). Safe. -/
  | sbzWmteLk
  /-- `commit_PA` (rule R111). Safe. -/
  | commitPa
  /-- `commit_ATTR` (rule R111). Safe. -/
  | commitAttr
  /-- `commit_VPN` (rule R111). Safe. -/
  | commitVpn
  /-- `commit_SPV_nonglobal` (rules R43, R111). Safe. -/
  | commitSpvNonglobal
  /-- `SZ_reserved_or_microTLB_only` (rule R133). Safe. -/
  | szReservedOrMicroTlbOnly
  /-- `AP_reserved` (rule R133). Safe. -/
  | apReserved
  /-- `SBZ_PPN` (rule R133). Safe. -/
  | sbzPpn
  /-- `SBZ_ATTR` (rule R143). Safe. -/
  | sbzAttr
  /-- `SBZ_AP_no_subpages` (rule R143). Safe. -/
  | sbzApNoSubpages
  /-- `RGN_reserved` (rule R143). Safe. -/
  | rgnReserved
  /-- `SBZ_TLBDBG` (rule R151). Safe. -/
  | sbzTlbdbg
  /-- `IMM_ne_DMM` (rules R46, R151). Safe. -/
  | immNeDmm
  /-- `IML_ne_DML` (rules R46, R151). Safe. -/
  | imlNeDml
  deriving DecidableEq, Repr

/-- The outcome of a step of this machine. -/
abbrev Out := Host.Outcome State Fault Refusal

/-! The updates of one field each. -/

/-- Write core register `r` (rule R20). -/
def State.setX (s : State) (r : Fin 15) (v : Word) : State := { s with x := s.x.set r v }
/-- Set the program counter. -/
def State.setPc (s : State) (v : Word) : State := { s with pc := v }
/-- Set `DMIDX.Index`. -/
def State.setDmidx (s : State) (v : BitVec 4) : State := { s with dmidx := v }
/-- Set `IMIDX.Index`. -/
def State.setImidx (s : State) (v : BitVec 4) : State := { s with imidx := v }
/-- Set `MTVA`. -/
def State.setMtva (s : State) (v : Word) : State := { s with mtva := v }
/-- Set `MTPA`. -/
def State.setMtpa (s : State) (v : Word) : State := { s with mtpa := v }
/-- Set `MTATTR`. -/
def State.setMtattr (s : State) (v : Word) : State := { s with mtattr := v }
/-- Set `TLBDBG[7:0]`. -/
def State.setTlbdbg (s : State) (v : BitVec 8) : State := { s with tlbdbg := v }
/-- Set the TLBs. -/
def State.setTlbs (s : State) (v : Tlbs) : State := { s with tlbs := v }
/-- Set the selector of `RMTE` (under `window`). -/
def State.setRmteSel (s : State) (v : MainSlot) : State := { s with rmteSel := v }
/-- Set the selector of `WMTE` (under `window`). -/
def State.setWmteSel (s : State) (v : MainSlot) : State := { s with wmteSel := v }
/-- Set the count of draws. -/
def State.setDraws (s : State) (v : Nat) : State := { s with draws := v }

/-- The TLBs at reset: every word zero. The spec gives no value (rules R57, R191). DESIGN CHOICE, unsafe;
notes/assumptions/1.md. -/
def Tlbs.reset : Tlbs where
  data := Vector.replicate 11 ⟨0, 0, 0⟩
  instruction := Vector.replicate 11 ⟨0, 0, 0⟩
  setAssoc := Vector.replicate 2 (Vector.replicate 32 ⟨0, 0, 0⟩)
  lockable := Vector.replicate 8 ⟨0, 0, 0⟩

/-- The launch parameters of the reset state. DESIGN CHOICE, unsafe; notes/assumptions/2.md. -/
def Launch.reset : Launch where
  priv := true
  program := []
  endPc := 0
  globalProcesses := []
  endian := .little
  transfer := .onEntryWrite

/-- The machine right after reset: `TLBDBG[7:0]` zero (rules R57, R190); every other value is a DESIGN CHOICE
(notes/assumptions/1.md, 2.md, 5.md, 9.md), unsafe to rest a claim on. -/
def State.reset : State where
  x := Vector.replicate 15 0
  pc := 0
  dmidx := 0
  imidx := 0
  mtva := 0
  mtpa := 0
  mtattr := 0
  tlbdbg := 0
  tlbs := Tlbs.reset
  rmteSel := .setAssoc 0 0
  wmteSel := .setAssoc 0 0
  draws := 0
  launch := Launch.reset

end Sys2Proof.Machine
end

