-- ==== Sys2Proof/Machine/Ops.lean ====
section
/-! DEFINITION. The shared operations: advancing the pc, the prologue every form runs first, taking the Undefined exception,
the two ways a form completes, the TLBs' entries, the TLB environment, and the program. -/

namespace Sys2Proof.Machine

/-! Outcomes shared by all forms. -/

/-- `pc <- pc + 4`, refused when that would pass 0xFFFFFFFC (rule R21, decision D2). -/
def advance (s : State) : Out :=
  if s.pc.toNat + 4 ≤ 0xFFFFFFFC then .next (s.setPc (s.pc + 4)) else .refused .pcPastTop

/-- Take the Undefined exception for form `i`: `Fault(Undefined, instr, pc)`, terminal, nothing written (rules R160 to R163,
R166). The spec describes no entry sequence and no return (rules R166, R167); notes/assumptions/7.md. -/
def takeUndefined (i : Instr) (s : State) : Out := .fault (.undefined (encode i) s.pc)

/-- The prologue of every form from the `Rd` check on (rule R86, decision D27): `Rd = 15` is refused, User mode takes the
Undefined exception, then the form's own `body` runs with its core register. -/
def prologue (i : Instr) (s : State) (body : Fin 15 → Out) : Out :=
  if h : i.rd.val < 15 then
    if s.launch.priv then body ⟨i.rd.val, h⟩ else takeUndefined i s
  else .refused .rdIsPc

/-- A form whose direction the register allows in no mode: Undefined after the same prologue (rules R86, R90). -/
def undefinedForm (i : Instr) (s : State) : Out := prologue i s fun _ => takeUndefined i s

/-- The stored word of a register and the mask of its bits that read as Unpredictable (rule R48). -/
structure Readable where
  stored : Word
  mask : Word
  deriving DecidableEq, Repr

/-- `merge(stored, mask)` with the free word `d` (rule R7). -/
def merge (r : Readable) (d : Word) : Word := (r.stored &&& ~~~r.mask) ||| (d &&& r.mask)

/-- Complete a read: `x[Rd] <- merge(stored, mask)` with a fresh draw, and nothing else but the pc (rules R48, R66). -/
def completeRead (r : Fin 15) (v : Readable) (s : State) : Out :=
  advance ((s.setX r (merge v (Config.freeWord s.draws))).setDraws (s.draws + 1))

/-- Complete a write: refuse for the first check that fails, else go on in `t` (rules R49, R86). -/
def completeWrite (refusal? : Option Refusal) (t : State) : Out :=
  match refusal? with
  | some r => .refused r
  | none => advance t

/-- The first refusal of a list of checks, each a refusal and the condition that raises it, in the order of the rule's
pseudocode. -/
def firstRefusal : List (Bool × Refusal) → Option Refusal
  | [] => none
  | (raised, r) :: rest => if raised then some r else firstRefusal rest

/-! The TLBs. -/

/-- The main TLB entry of a slot (rule R55). -/
def Tlbs.mainEntry (t : Tlbs) : MainSlot → TlbEntry
  | .setAssoc way set => t.setAssoc[way][set]
  | .lockable i => t.lockable[i]

/-- Replace the main TLB entry of a slot (rule R111). -/
def Tlbs.setMain (t : Tlbs) (slot : MainSlot) (e : TlbEntry) : Tlbs :=
  match slot with
  | .setAssoc way set => { t with setAssoc := t.setAssoc.set way (t.setAssoc[way].set set e) }
  | .lockable i => { t with lockable := t.lockable.set i e }

/-- The entry of any slot. -/
def Tlbs.entry (t : Tlbs) : TlbSlot → TlbEntry
  | .data i => t.data[i]
  | .instruction i => t.instruction[i]
  | .main slot => t.mainEntry slot

/-- Replace the entry of any slot. -/
def Tlbs.setEntry (t : Tlbs) (slot : TlbSlot) (e : TlbEntry) : Tlbs :=
  match slot with
  | .data i => { t with data := t.data.set i e }
  | .instruction i => { t with instruction := t.instruction.set i e }
  | .main m => t.setMain m e

/-! The TLB environment. -/

/-- Whether `TLBDBG` lets the environment rewrite a slot: bit 0 (DUL) clear for the Data MicroTLB, bit 1 (IUL) clear for the
Instruction MicroTLB, bit 4 (DML) or bit 5 (IML) clear for the main TLB (rules R72 to R75). -/
def envMayRewrite (tlbdbg : BitVec 8) : TlbSlot → Bool
  | .data _ => !tlbdbg.getLsbD 0
  | .instruction _ => !tlbdbg.getLsbD 1
  | .main _ => !tlbdbg.getLsbD 4 || !tlbdbg.getLsbD 5

/-- One `TLBEnv` step: the entry is replaced if its TLB's switch is enabled (rule R72). -/
def envStep (tlbdbg : BitVec 8) (t : Tlbs) (m : EnvMove) : Tlbs :=
  if envMayRewrite tlbdbg m.slot then t.setEntry m.slot m.entry else t

/-- The gap before a core step: any finite run of `TLBEnv` steps, which write nothing but TLB entries (rule R72). The
counter names the gap; notes/assumptions/6.md. -/
def envGap (s : State) : State :=
  (s.setTlbs ((Config.envMoves s.draws).foldl (envStep s.tlbdbg) s.tlbs)).setDraws (s.draws + 1)

/-! The program. -/

/-- The word at an address, if the program holds one (rule R62). -/
def Program.word? : Program → Nat → Option Word
  | [], _ => none
  | (a, w) :: rest, addr => if addr = a then some w else Program.word? rest addr

/-- Put a word at an address, keeping the addresses rising. -/
def Program.put : Program → Nat → Word → Program
  | [], addr, v => [(addr, v)]
  | (a, w) :: rest, addr, v =>
    if addr < a then (addr, v) :: (a, w) :: rest
    else if addr = a then (addr, v) :: rest
    else (a, w) :: Program.put rest addr v

/-- What the run meets at `pc`: its end, a refusal, or a word to decode (rules R86, R199). DESIGN CHOICE, safe: the end of
the run is tested first (notes/assumptions/16.md), and a `pc` both misaligned and outside the program is refused as
`pcMisaligned`, where rules R86 and R165 name no one of the two (notes/assumptions/26.md). -/
def fetch (s : State) : Except Refusal Word :=
  if s.pc = s.launch.endPc then .error .runEnded
  else if s.pc.toNat % 4 ≠ 0 then .error .pcMisaligned
  else
    match s.launch.program.word? s.pc.toNat with
    | some w => .ok w
    | none => .error .outsideProgram

/-- The refusal of a word that does not decode (rules R20, R83, R88). -/
def decodeRefusal : DecodeError → Refusal
  | .unlisted => .unlisted
  | .condNotAlways => .condNotAlways
  | .rdIsPc => .rdIsPc

/-- The instruction at `pc`, or why there is none (rule R86). -/
def fetchInstr (s : State) : Except Refusal Instr :=
  match fetch s with
  | .error r => .error r
  | .ok w =>
    match decode w with
    | .error e => .error (decodeRefusal e)
    | .ok i => .ok i

/-- Place the word `w` where the next step fetches, and move `END_PC` past it if the run would end there
(notes/assumptions/4.md). -/
def placeWord (s : State) (w : Word) : State :=
  { s with
    launch := { s.launch with
      program := s.launch.program.put s.pc.toNat w
      endPc := if s.launch.endPc = s.pc then s.pc + 4 else s.launch.endPc } }

end Sys2Proof.Machine
end

