-- ==== Sys2Proof/Machine/Operands.lean ====
section
/-! DEFINITION. What a read of each register gives (rule R48), what a write of each register is checked for (rule R49), the
selector of a main TLB entry (rules R27, R55), and the holding registers under both transfer models (decision D7). The
machine has no flags (rule R22), so there is no Flags.lean. -/

namespace Sys2Proof.Machine

/-! Reading (rule R48). -/

/-- An index register: 28 Unpredictable bits above `Index` (rules R25, R48). -/
def indexReadable (index : BitVec 4) : Readable := ⟨index.setWidth 32, 0xFFFFFFF0⟩

/-- The VA word of an entry: its untranslated VPN bits are Unpredictable (rules R29, R38, R48). -/
def vaReadable (e : TlbEntry) : Readable := ⟨e.va, untrans (szField e.pa)⟩

/-- The PA word of an entry: its untranslated PPN bits are Unpredictable (rules R32, R38, R48). -/
def paReadable (e : TlbEntry) : Readable := ⟨e.pa, untrans (szField e.pa)⟩

/-- The Attribute word of a main TLB entry: bits [24:9] are drawn, and AP3, AP2, AP1 where SPV = 0 (rules R39, R48, R142). -/
def mainAttrReadable (e : TlbEntry) : Readable :=
  ⟨e.attr, 0x01FFFE00 ||| (if spvBit e.attr then 0x00000000 else 0xFC000000)⟩

/-- The Attribute word of a Data MicroTLB entry: bit 25 reads 0, and XN is drawn too (rules R40, R48, R140). -/
def dataAttrReadable (e : TlbEntry) : Readable := ⟨e.attr &&& 0xFDFFFFFF, 0xFDFFFE10⟩

/-- The Attribute word of an Instruction MicroTLB entry: bit 25 reads 0 (rules R40, R48, R141). -/
def instructionAttrReadable (e : TlbEntry) : Readable := ⟨e.attr &&& 0xFDFFFFFF, 0xFDFFFE00⟩

/-- A MicroTLB view: the entry the index names at this moment, and with an index over 10 no entry, every bit drawn (rules
R26, R48, R56, decisions D6, D8). -/
def microReadable (entries : Vector TlbEntry 11) (index : BitVec 4) (view : TlbEntry → Readable) : Readable :=
  if h : index.toNat < 11 then view entries[index.toNat] else ⟨0, 0xFFFFFFFF⟩

/-- `TLBDBG`: 24 Unpredictable bits above the eight control bits (rules R45, R48). -/
def debugReadable (d : BitVec 8) : Readable := ⟨d.setWidth 32, 0xFFFFFF00⟩

/-- The entry `MTVA`, `MTPA` and `MTATTR` show on a read: the holding registers themselves, or under `window` the entry
that `RMTE` selects (rules R122, R132, R142, decision D7). -/
def mainWindow (s : State) : TlbEntry :=
  match s.launch.transfer with
  | .onEntryWrite => ⟨s.mtva, s.mtpa, s.mtattr⟩
  | .window => s.tlbs.mainEntry s.rmteSel

/-! Checks on a written value (rule R49). -/

/-- `wf_idx`: bits [31:4] Should Be Zero (rules R101, R103). -/
def indexRefusal (r : Refusal) (v : Word) : Option Refusal :=
  firstRefusal [(v.extractLsb' 4 28 != 0, r)]

/-- `wf_pa`: a main TLB size, AP not reserved, untranslated PPN bits zero (rules R49, R133). -/
def paRefusal (v : Word) : Option Refusal :=
  firstRefusal [
    (!szMain (szField v), .szReservedOrMicroTlbOnly),
    (apField v == 0b111, .apReserved),
    (v &&& untrans (szField v) != 0, .sbzPpn)]

/-- `wf_attr`: bits [24:9] zero, AP3 to AP1 zero when SPV = 0, RGN not reserved (rules R49, R143). -/
def attrRefusal (v : Word) : Option Refusal :=
  firstRefusal [
    (v.extractLsb' 9 16 != 0, .sbzAttr),
    (!spvBit v && v.extractLsb' 26 6 != 0, .sbzApNoSubpages),
    (!rgnLegal (rgnField v), .rgnReserved)]

/-- `wf_dbg`: bits [31:8] zero, IMM = DMM, IML = DML (rules R46, R49, R151). -/
def debugRefusal (v : Word) : Option Refusal :=
  firstRefusal [
    (v.extractLsb' 8 24 != 0, .sbzTlbdbg),
    (v.getLsbD 7 != v.getLsbD 6, .immNeDmm),
    (v.getLsbD 5 != v.getLsbD 4, .imlNeDml)]

/-- `is_global(PROCESS)` (rules R30, R43, decision D26). -/
def Launch.isGlobal (l : Launch) (process : BitVec 10) : Bool := l.globalProcesses.contains process

/-- The commit checks, `wf_commit`, in the order of rule R111 (rules R43, R49). -/
def commitRefusal (l : Launch) (e : TlbEntry) : Option Refusal :=
  firstRefusal [
    ((paRefusal e.pa).isSome, .commitPa),
    ((attrRefusal e.attr).isSome, .commitAttr),
    (e.va &&& untrans (szField e.pa) != 0, .commitVpn),
    (spvBit e.attr && !l.isGlobal (processField e.va), .commitSpvNonglobal)]

/-- `wf_sel`: bits [30:6] zero and, with L = 1, bits [5:3] zero (rules R27, R49). -/
def selectorRefusal (sbz sbzLockable : Refusal) (v : Word) : Option Refusal :=
  firstRefusal [
    (v.extractLsb' 6 25 != 0, sbz),
    (v.getLsbD 31 && v.extractLsb' 3 3 != 0, sbzLockable)]

/-- The slot a selector names: L = 0, way `v[5]` and set `v[4:0]`; L = 1, lockable entry `v[2:0]` (rules R27, R55). -/
def selectedSlot (v : Word) : MainSlot :=
  if v.getLsbD 31 then .lockable (v.extractLsb' 0 3).toFin
  else .setAssoc (v.extractLsb' 5 1).toFin (v.extractLsb' 0 5).toFin

/-! Moving data between the main TLB and `MTVA`, `MTPA`, `MTATTR` (decision D7). -/

/-- The state after an accepted write of `RMTE`: the three copies of rule R110, or under `window` the latched selector. -/
def selectForRead (s : State) (slot : MainSlot) : State :=
  match s.launch.transfer with
  | .onEntryWrite =>
    ((s.setMtva (s.tlbs.mainEntry slot).va).setMtpa (s.tlbs.mainEntry slot).pa).setMtattr (s.tlbs.mainEntry slot).attr
  | .window => s.setRmteSel slot

/-- The commit checks at a write of `WMTE`; under `window` nothing is committed and nothing checked
(notes/assumptions/9.md). -/
def selectForWriteRefusal (s : State) : Option Refusal :=
  match s.launch.transfer with
  | .onEntryWrite => commitRefusal s.launch ⟨s.mtva, s.mtpa, s.mtattr⟩
  | .window => none

/-- The state after an accepted write of `WMTE`: the commit of rule R111, or under `window` the latched selector. -/
def selectForWrite (s : State) (slot : MainSlot) : State :=
  match s.launch.transfer with
  | .onEntryWrite => s.setTlbs (s.tlbs.setMain slot ⟨s.mtva, s.mtpa, s.mtattr⟩)
  | .window => s.setWmteSel slot

/-- Write one word of the entry `WMTE` selects, under `window` (decision D7). -/
def writeWindow (s : State) (f : TlbEntry → TlbEntry) : State :=
  s.setTlbs (s.tlbs.setMain s.wmteSel (f (s.tlbs.mainEntry s.wmteSel)))

/-- The state after an accepted write of `MTVA` (rule R123, decision D7). -/
def writeMtva (s : State) (v : Word) : State :=
  match s.launch.transfer with
  | .onEntryWrite => s.setMtva v
  | .window => writeWindow s fun e => { e with va := v }

/-- The state after an accepted write of `MTPA` (rule R133, decision D7). -/
def writeMtpa (s : State) (v : Word) : State :=
  match s.launch.transfer with
  | .onEntryWrite => s.setMtpa v
  | .window => writeWindow s fun e => { e with pa := v }

/-- The state after an accepted write of `MTATTR` (rule R143, decision D7). -/
def writeMtattr (s : State) (v : Word) : State :=
  match s.launch.transfer with
  | .onEntryWrite => s.setMtattr v
  | .window => writeWindow s fun e => { e with attr := v }

end Sys2Proof.Machine
end

