-- ==== Sys2Proof/Machine/MainTlbEntry.lean ====
section
/-! DEFINITION. Main TLB Entry Register accesses (42_main_tlb_entry.md). -/

namespace Sys2Proof.Machine

/-- Write to Read Main TLB Entry Register: the selected entry is copied into `MTVA`, `MTPA`, `MTATTR` (rule R110). -/
def execMcrRmte (rd : Fin 16) (s : State) : Out :=
  prologue (.mcrRmte rd) s fun r =>
    completeWrite (selectorRefusal .sbzRmte .sbzRmteLk s.x[r]) (selectForRead s (selectedSlot s.x[r]))

/-- Write to Write Main TLB Entry Register: the selector checks, then the commit checks, then `MTVA`, `MTPA`, `MTATTR` are
copied into the selected entry (rule R111). -/
def execMcrWmte (rd : Fin 16) (s : State) : Out :=
  prologue (.mcrWmte rd) s fun r =>
    completeWrite ((selectorRefusal .sbzWmte .sbzWmteLk s.x[r]).or (selectForWriteRefusal s)) (selectForWrite s (selectedSlot s.x[r]))

/-- Read of the write-only Read Main TLB Entry Register: Undefined in every mode (rule R112). -/
def execMrcRmte (rd : Fin 16) (s : State) : Out :=
  undefinedForm (.mrcRmte rd) s

/-- Read of the write-only Write Main TLB Entry Register: Undefined in every mode (rule R113). -/
def execMrcWmte (rd : Fin 16) (s : State) : Out :=
  undefinedForm (.mrcWmte rd) s

end Sys2Proof.Machine
end

