-- ==== Sys2Proof/Machine/MicroTlbIndex.lean ====
section
/-! DEFINITION. MicroTLB Index Register accesses (41_microtlb_index.md). -/

namespace Sys2Proof.Machine

/-- Read Data MicroTLB Index Register: `x[Rd] <- draw_28() : DMIDX.Index` (rule R100). -/
def execMrcDmidx (rd : Fin 16) (s : State) : Out :=
  prologue (.mrcDmidx rd) s fun r => completeRead r (indexReadable s.dmidx) s

/-- Write Data MicroTLB Index Register: bits [31:4] Should Be Zero; 11 to 15 are stored (rules R26, R101). -/
def execMcrDmidx (rd : Fin 16) (s : State) : Out :=
  prologue (.mcrDmidx rd) s fun r =>
    completeWrite (indexRefusal .sbzDmidx s.x[r]) (s.setDmidx (s.x[r].extractLsb' 0 4))

/-- Read Instruction MicroTLB Index Register: `x[Rd] <- draw_28() : IMIDX.Index` (rule R102). -/
def execMrcImidx (rd : Fin 16) (s : State) : Out :=
  prologue (.mrcImidx rd) s fun r => completeRead r (indexReadable s.imidx) s

/-- Write Instruction MicroTLB Index Register (rule R103). -/
def execMcrImidx (rd : Fin 16) (s : State) : Out :=
  prologue (.mcrImidx rd) s fun r =>
    completeWrite (indexRefusal .sbzImidx s.x[r]) (s.setImidx (s.x[r].extractLsb' 0 4))

end Sys2Proof.Machine
end

