-- ==== Sys2Proof/Machine/TlbAttr.lean ====
section
/-! DEFINITION. TLB Attribute Register accesses (45_tlb_attr.md). -/

namespace Sys2Proof.Machine

/-- Read Data MicroTLB Attribute Register: only Domain, RGN and S carry information; bit 25 is 0 (rule R140). -/
def execMrcDmattr (rd : Fin 16) (s : State) : Out :=
  prologue (.mrcDmattr rd) s fun r => completeRead r (microReadable s.tlbs.data s.dmidx dataAttrReadable) s

/-- Read Instruction MicroTLB Attribute Register: as `mrcDmattr`, with XN (rule R141). -/
def execMrcImattr (rd : Fin 16) (s : State) : Out :=
  prologue (.mrcImattr rd) s fun r => completeRead r (microReadable s.tlbs.instruction s.imidx instructionAttrReadable) s

/-- Read Main TLB Attribute Register (rule R142). -/
def execMrcMtattr (rd : Fin 16) (s : State) : Out :=
  prologue (.mrcMtattr rd) s fun r => completeRead r (mainAttrReadable (mainWindow s)) s

/-- Write Main TLB Attribute Register: bits [24:9], the subpage permissions and RGN are checked (rule R143). -/
def execMcrMtattr (rd : Fin 16) (s : State) : Out :=
  prologue (.mcrMtattr rd) s fun r =>
    completeWrite (attrRefusal s.x[r]) (writeMtattr s s.x[r])

/-- Write of the read-only Data MicroTLB Attribute Register: Undefined in every mode (rule R144). -/
def execMcrDmattr (rd : Fin 16) (s : State) : Out :=
  undefinedForm (.mcrDmattr rd) s

/-- Write of the read-only Instruction MicroTLB Attribute Register: Undefined in every mode (rule R145). -/
def execMcrImattr (rd : Fin 16) (s : State) : Out :=
  undefinedForm (.mcrImattr rd) s

end Sys2Proof.Machine
end

