-- ==== Sys2Proof/Machine/TlbDebugControl.lean ====
section
/-! DEFINITION. TLB Debug Control Register accesses (46_tlb_debug_control.md). -/

namespace Sys2Proof.Machine

/-- Read TLB Debug Control Register: `x[Rd] <- draw_24() : TLBDBG[7:0]` (rule R150). -/
def execMrcTlbdbg (rd : Fin 16) (s : State) : Out :=
  prologue (.mrcTlbdbg rd) s fun r => completeRead r (debugReadable s.tlbdbg) s

/-- Write to TLB Debug Control Register: bits [31:8] zero, IMM = DMM, IML = DML (rule R151). -/
def execMcrTlbdbg (rd : Fin 16) (s : State) : Out :=
  prologue (.mcrTlbdbg rd) s fun r =>
    completeWrite (debugRefusal s.x[r]) (s.setTlbdbg (s.x[r].extractLsb' 0 8))

end Sys2Proof.Machine
end

