-- ==== Sys2Proof/Machine/TlbPa.lean ====
section
/-! DEFINITION. TLB PA Register accesses (44_tlb_pa.md). -/

namespace Sys2Proof.Machine

/-- Read Data MicroTLB PA Register (rule R130). -/
def execMrcDmpa (rd : Fin 16) (s : State) : Out :=
  prologue (.mrcDmpa rd) s fun r => completeRead r (microReadable s.tlbs.data s.dmidx paReadable) s

/-- Read Instruction MicroTLB PA Register (rule R131). -/
def execMrcImpa (rd : Fin 16) (s : State) : Out :=
  prologue (.mrcImpa rd) s fun r => completeRead r (microReadable s.tlbs.instruction s.imidx paReadable) s

/-- Read Main TLB PA Register (rule R132). -/
def execMrcMtpa (rd : Fin 16) (s : State) : Out :=
  prologue (.mrcMtpa rd) s fun r => completeRead r (paReadable (mainWindow s)) s

/-- Write Main TLB PA Register: SZ, AP and PPN are checked (rule R133). -/
def execMcrMtpa (rd : Fin 16) (s : State) : Out :=
  prologue (.mcrMtpa rd) s fun r =>
    completeWrite (paRefusal s.x[r]) (writeMtpa s s.x[r])

/-- Write of the read-only Data MicroTLB PA Register: Undefined in every mode (rule R134). -/
def execMcrDmpa (rd : Fin 16) (s : State) : Out :=
  undefinedForm (.mcrDmpa rd) s

/-- Write of the read-only Instruction MicroTLB PA Register: Undefined in every mode (rule R135). -/
def execMcrImpa (rd : Fin 16) (s : State) : Out :=
  undefinedForm (.mcrImpa rd) s

end Sys2Proof.Machine
end

