-- ==== Sys2Proof/Machine/TlbVa.lean ====
section
/-! DEFINITION. TLB VA Register accesses (43_tlb_va.md). -/

namespace Sys2Proof.Machine

/-- Read Data MicroTLB VA Register (rule R120). -/
def execMrcDmva (rd : Fin 16) (s : State) : Out :=
  prologue (.mrcDmva rd) s fun r => completeRead r (microReadable s.tlbs.data s.dmidx vaReadable) s

/-- Read Instruction MicroTLB VA Register (rule R121). -/
def execMrcImva (rd : Fin 16) (s : State) : Out :=
  prologue (.mrcImva rd) s fun r => completeRead r (microReadable s.tlbs.instruction s.imidx vaReadable) s

/-- Read Main TLB VA Register, masked by the SZ that `MTPA` holds now (rule R122). -/
def execMrcMtva (rd : Fin 16) (s : State) : Out :=
  prologue (.mrcMtva rd) s fun r => completeRead r (vaReadable (mainWindow s)) s

/-- Write Main TLB VA Register: all 32 bits stored, no check (rule R123). -/
def execMcrMtva (rd : Fin 16) (s : State) : Out :=
  prologue (.mcrMtva rd) s fun r =>
    completeWrite (none) (writeMtva s s.x[r])

/-- Write of the read-only Data MicroTLB VA Register: Undefined in every mode (rule R124). -/
def execMcrDmva (rd : Fin 16) (s : State) : Out :=
  undefinedForm (.mcrDmva rd) s

/-- Write of the read-only Instruction MicroTLB VA Register: Undefined in every mode (rule R125). -/
def execMcrImva (rd : Fin 16) (s : State) : Out :=
  undefinedForm (.mcrImva rd) s

end Sys2Proof.Machine
end

