-- ==== Sys2Proof/Machine/Dispatch.lean ====
section
/-! DEFINITION. The meaning of each of the 28 forms, one arm per constructor (rule R85). -/

namespace Sys2Proof.Machine

def exec (i : Instr) (s : State) : Host.Outcome State Fault Refusal :=
  match i with
  | .mrcDmidx rd => Sys2Proof.Machine.execMrcDmidx rd s
  | .mcrDmidx rd => Sys2Proof.Machine.execMcrDmidx rd s
  | .mrcImidx rd => Sys2Proof.Machine.execMrcImidx rd s
  | .mcrImidx rd => Sys2Proof.Machine.execMcrImidx rd s
  | .mcrRmte rd => Sys2Proof.Machine.execMcrRmte rd s
  | .mcrWmte rd => Sys2Proof.Machine.execMcrWmte rd s
  | .mrcRmte rd => Sys2Proof.Machine.execMrcRmte rd s
  | .mrcWmte rd => Sys2Proof.Machine.execMrcWmte rd s
  | .mrcDmva rd => Sys2Proof.Machine.execMrcDmva rd s
  | .mrcImva rd => Sys2Proof.Machine.execMrcImva rd s
  | .mrcMtva rd => Sys2Proof.Machine.execMrcMtva rd s
  | .mcrMtva rd => Sys2Proof.Machine.execMcrMtva rd s
  | .mcrDmva rd => Sys2Proof.Machine.execMcrDmva rd s
  | .mcrImva rd => Sys2Proof.Machine.execMcrImva rd s
  | .mrcDmpa rd => Sys2Proof.Machine.execMrcDmpa rd s
  | .mrcImpa rd => Sys2Proof.Machine.execMrcImpa rd s
  | .mrcMtpa rd => Sys2Proof.Machine.execMrcMtpa rd s
  | .mcrMtpa rd => Sys2Proof.Machine.execMcrMtpa rd s
  | .mcrDmpa rd => Sys2Proof.Machine.execMcrDmpa rd s
  | .mcrImpa rd => Sys2Proof.Machine.execMcrImpa rd s
  | .mrcDmattr rd => Sys2Proof.Machine.execMrcDmattr rd s
  | .mrcImattr rd => Sys2Proof.Machine.execMrcImattr rd s
  | .mrcMtattr rd => Sys2Proof.Machine.execMrcMtattr rd s
  | .mcrMtattr rd => Sys2Proof.Machine.execMcrMtattr rd s
  | .mcrDmattr rd => Sys2Proof.Machine.execMcrDmattr rd s
  | .mcrImattr rd => Sys2Proof.Machine.execMcrImattr rd s
  | .mrcTlbdbg rd => Sys2Proof.Machine.execMrcTlbdbg rd s
  | .mcrTlbdbg rd => Sys2Proof.Machine.execMcrTlbdbg rd s

end Sys2Proof.Machine
end

