-- ==== Sys2Proof/Machine/Step.lean ====
section
/-! DEFINITION. One step of the machine: the run of the TLB environment that the gap before the instruction holds, then the
instruction at `pc` (rules R10, R69, R72, R86). -/

namespace Sys2Proof.Machine

/-- One step: refused when the run has ended or nothing decodes at `pc` (rules R86, R199); else the TLB environment's gap
and then the instruction, in one order, since a fetch reads no TLB (rules R62, R69, R72). -/
def step (s : State) : Host.Outcome State Fault Refusal :=
  match fetchInstr s with
  | .error r => .refused r
  | .ok i => exec i (envGap s)

/-- The state with the instruction of `nbits` bits and value `w` placed where the next step fetches. -/
def State.withFetchWord (s : State) (nbits w : Nat) : State :=
  placeWord s (BitVec.ofNat 32 (w % 2 ^ nbits))

end Sys2Proof.Machine
end

