-- ==== Sys2Proof/Safety.lean ====
section
/-! DEFINITION. The terms claims use: when a form runs undisturbed by mode and address, the state's invariants, the launch
states, and the end of a run. -/

namespace Sys2Proof.Machine

/-- A core register number as the field `Rd` that names it. -/
def rdOf (r : Fin 15) : Fin 16 := r.castSucc

/-- The core may run the forms and has room to go on: a privileged mode (rule R23), and `pc + 4` not past 0xFFFFFFFC
(rule R21). -/
abbrev Ready (s : State) : Prop := s.launch.priv = true ∧ s.pc.toNat + 4 ≤ 0xFFFFFFFC

/-- Decision D7, the premise of every claim that rests on it: `MAIN_TLB_TRANSFER = on_entry_write`. -/
abbrev TransfersOnEntryWrite (s : State) : Prop := s.launch.transfer = .onEntryWrite

/-- The alternative that D7 names: `MAIN_TLB_TRANSFER = window`. -/
abbrev TransfersByWindow (s : State) : Prop := s.launch.transfer = .window

/-- `TLBDBG[7] = TLBDBG[6]` and `TLBDBG[5] = TLBDBG[4]`, the one invariant of rules R46 and R58. -/
abbrev DebugPaired (s : State) : Prop :=
  s.tlbdbg.getLsbD 7 = s.tlbdbg.getLsbD 6 ∧ s.tlbdbg.getLsbD 5 = s.tlbdbg.getLsbD 4

/-- The pc is a multiple of 4 (rules R21, R64). -/
abbrev PcAligned (s : State) : Prop := s.pc.toNat % 4 = 0

/-- The invariant every step keeps: the pairs of `TLBDBG`, an aligned pc, a program in canonical form. -/
abbrev Inv (s : State) : Prop := DebugPaired s ∧ PcAligned s ∧ s.launch.program.Wf

/-- A state a run may be launched in: `TLBDBG[7:0]` zero, everything else arbitrary (rules R57, R191, R192). -/
abbrev Launchable (s : State) : Prop := s.tlbdbg = 0

/-- The run has ended (rule R199). -/
abbrev Final (s : State) : Prop := s.pc = s.launch.endPc

/-! The write checks of rule R49, as the predicates the rule gives. -/

/-- `wf_idx(v)`. -/
abbrev WfIdx (v : Word) : Prop := v.extractLsb' 4 28 = 0

/-- `wf_sel(v)`. -/
abbrev WfSel (v : Word) : Prop := v.extractLsb' 6 25 = 0 ∧ (v.getLsbD 31 = false ∨ v.extractLsb' 3 3 = 0)

/-- `wf_pa(v)`. -/
abbrev WfPa (v : Word) : Prop :=
  v.extractLsb' 6 4 ∈ [0b1110#4, 0b1000#4, 0b0000#4, 0b0001#4] ∧ v.extractLsb' 1 3 ≠ 0b111#3 ∧
    v &&& untrans (v.extractLsb' 6 4) = 0

/-- `wf_attr(v)`. -/
abbrev WfAttr (v : Word) : Prop :=
  v.extractLsb' 9 16 = 0 ∧ (v.getLsbD 25 = true ∨ v.extractLsb' 26 6 = 0) ∧
    v.extractLsb' 1 3 ∈ [0b000#3, 0b001#3, 0b011#3, 0b110#3, 0b111#3]

/-- `wf_dbg(v)`. -/
abbrev WfDbg (v : Word) : Prop :=
  v.extractLsb' 8 24 = 0 ∧ v.getLsbD 7 = v.getLsbD 6 ∧ v.getLsbD 5 = v.getLsbD 4

/-- `wf_commit`, of the holding registers. -/
abbrev WfCommit (s : State) : Prop :=
  WfPa s.mtpa ∧ WfAttr s.mtattr ∧ s.mtva &&& untrans (s.mtpa.extractLsb' 6 4) = 0 ∧
    (s.mtattr.getLsbD 25 = false ∨ s.launch.isGlobal (s.mtva.extractLsb' 0 10) = true)

/-! Outcomes. -/

/-- An outcome that is a next state. -/
def Completes (o : Out) : Prop := ∃ t, o = .next t

/-- In User mode form `i` takes the Undefined exception at `s` (rule R160). -/
def UserUndefined (i : Instr) (s : State) : Prop :=
  s.launch.priv = false → exec i s = .fault (.undefined (encode i) s.pc)

/-- A read that completes: `x[r]` takes an allowed value, the pc moves on, and nothing else of the machine changes; `n` is
the model's own count of draws, left free. -/
def ReadAnswers (s : State) (r : Fin 15) (o : Out) (allowed : Word → Prop) : Prop :=
  ∃ v n, allowed v ∧ o = .next { s with x := s.x.set r v, pc := s.pc + 4, draws := n }

/-- The values `merge(stored, mask)` can take: the stored word outside the mask, any bits inside it (rule R7). -/
def Merged (stored mask : Word) (v : Word) : Prop := ∃ d : Word, v = (stored &&& ~~~mask) ||| (d &&& mask)

/-- Apply a change to the next state of an outcome; faults and refusals stay. -/
def mapNext (f : State → State) : Out → Out
  | .next t => .next (f t)
  | .fault r => .fault r
  | .refused r => .refused r

end Sys2Proof.Machine
end

