-- ==== Sys2Proof/Certificates/Slice0/Obligations.lean ====
section
/-! DEFINITION. The statements for the provers, from the numbered rules of spec/: the encoding, the step, the Undefined
exception, the 20 forms that complete, and the rules of the whole machine. -/

open Sys2Proof Sys2Proof.Machine

/-- Decoding the encoding of a well-formed instruction gives it back (R80, R81, R85). Derived; rests on: the layout is
general knowledge the spec adopts (notes/assumptions/15.md). -/
def Obligations.EncodedInstructionDecodesToItself : Prop :=
  ∀ i : Instr, i.wellFormed = true → decode (encode i) = .ok i

/-- A word that decodes is the encoding of what it decodes to, which is well formed (R80, R85). Derived; rests on: the layout
is general knowledge the spec adopts (notes/assumptions/15.md). -/
def Obligations.DecodedWordEncodesToItself : Prop :=
  ∀ (w : Word) (i : Instr), decode w = .ok i → i.wellFormed = true ∧ encode i = w

/-- The 28 rows: a word selects a row iff it agrees with its match word under the mask (R85). Derived; rests on: the spec
infers the match words from its word formula (30_encoding.md section 3; notes/assumptions/15.md). -/
def Obligations.OpcodeMapSelectsItsRows : Prop :=
  ∀ (w : Word) (table : List (Word × (Fin 16 → Instr))),
    table =
      [(0xEEBF0F14#32, Instr.mrcDmidx),
       (0xEEAF0F14#32, Instr.mcrDmidx),
       (0xEEBF0F34#32, Instr.mrcImidx),
       (0xEEAF0F34#32, Instr.mcrImidx),
       (0xEEAF0F54#32, Instr.mcrRmte),
       (0xEEAF0F94#32, Instr.mcrWmte),
       (0xEEBF0F54#32, Instr.mrcRmte),
       (0xEEBF0F94#32, Instr.mrcWmte),
       (0xEEBF0F15#32, Instr.mrcDmva),
       (0xEEBF0F35#32, Instr.mrcImva),
       (0xEEBF0F55#32, Instr.mrcMtva),
       (0xEEAF0F55#32, Instr.mcrMtva),
       (0xEEAF0F15#32, Instr.mcrDmva),
       (0xEEAF0F35#32, Instr.mcrImva),
       (0xEEBF0F16#32, Instr.mrcDmpa),
       (0xEEBF0F36#32, Instr.mrcImpa),
       (0xEEBF0F56#32, Instr.mrcMtpa),
       (0xEEAF0F56#32, Instr.mcrMtpa),
       (0xEEAF0F16#32, Instr.mcrDmpa),
       (0xEEAF0F36#32, Instr.mcrImpa),
       (0xEEBF0F17#32, Instr.mrcDmattr),
       (0xEEBF0F37#32, Instr.mrcImattr),
       (0xEEBF0F57#32, Instr.mrcMtattr),
       (0xEEAF0F57#32, Instr.mcrMtattr),
       (0xEEAF0F17#32, Instr.mcrDmattr),
       (0xEEAF0F37#32, Instr.mcrImattr),
       (0xEEFF0F11#32, Instr.mrcTlbdbg),
       (0xEEEF0F11#32, Instr.mcrTlbdbg)] →
    (∀ row ∈ table, w &&& 0xFFFF0FFF = row.1 →
      (w.extractLsb' 12 4 ≠ 15 → decode w = .ok (row.2 (w.extractLsb' 12 4).toFin)) ∧
      (w.extractLsb' 12 4 = 15 → decode w = .error .rdIsPc)) ∧
    ((∀ row ∈ table, w &&& 0xFFFF0FFF ≠ row.1) → ∀ i, decode w ≠ .ok i)

/-- The instruction word as the formula of its fields (R81). -/
def Obligations.EncodingFollowsTheWordFormula : Prop :=
  ∀ i : Instr,
    let loc := i.register.location
    let rd := BitVec.ofNat 32 i.rd.val <<< 12
    let tail := (loc.opcode2.setWidth 32 <<< 5) ||| loc.crm.setWidth 32
    encode i = (0xE#32 <<< 28) ||| (0xE#32 <<< 24) ||| (loc.opcode1.setWidth 32 <<< 21) |||
      ((if i.isRead then 1#32 else 0#32) <<< 20) ||| (15#32 <<< 16) ||| rd ||| (15#32 <<< 8) |||
      (loc.opcode2.setWidth 32 <<< 5) ||| (1#32 <<< 4) ||| loc.crm.setWidth 32 ∧
    loc.crn = 15 ∧
    (i.isRead = true → loc.opcode1 = 5 → encode i = 0xEEBF0F10 ||| rd ||| tail) ∧
    (i.isRead = false → loc.opcode1 = 5 → encode i = 0xEEAF0F10 ||| rd ||| tail) ∧
    (i.isRead = true → loc.opcode1 = 7 → encode i = 0xEEFF0F10 ||| rd ||| tail) ∧
    (i.isRead = false → loc.opcode1 = 7 → encode i = 0xEEEF0F10 ||| rd ||| tail)

/-- A few words written out from the encoding decode, or are refused by name, as the spec says (95_test_vectors.md V30.1 to
V30.11, R85, R88). Derived; rests on: the refusal of unlisted words is decision D19 (notes/assumptions/22.md). -/
def Obligations.SampleWordsDecode : Prop :=
  decode 0xEEBF1F14 = .ok (.mrcDmidx 1) ∧ decode 0xEEAFEF94 = .ok (.mcrWmte 14) ∧ decode 0xEEFF5F11 = .ok (.mrcTlbdbg 5) ∧
  decode 0xEEAF5F34 = .ok (.mcrImidx 5) ∧ decode 0xEEBF2F55 = .ok (.mrcMtva 2) ∧ decode 0xEEAF9F36 = .ok (.mcrImpa 9) ∧
  decode 0xEEBF3F17 = .ok (.mrcDmattr 3) ∧ decode 0xEEBFFF14 = .error .rdIsPc ∧ decode 0x1EBF0F14 = .error .condNotAlways ∧
  decode 0xEEAF0F74 = .error .unlisted ∧ decode 0xEEBF0F75 = .error .unlisted ∧ decode 0xEEFF0F31 = .error .unlisted ∧
  decode 0xEEBF0E14 = .error .unlisted ∧ decode 0xEEBE0F14 = .error .unlisted ∧ decode 0xEE110F10 = .error .unlisted

/-- When the word at pc decodes to i, a step is the environment gap and then exec of i (R10, R69, R72, R86). Derived; rests
on: decisions D13, D17 and D27, the spec's own; that the gap stands before the instruction is the model's choice
(notes/assumptions/6.md, 11.md). -/
def Obligations.StepRunsTheDecodedInstruction : Prop :=
  ∀ (s : State) (w : Word) (i : Instr), ¬ Final s → PcAligned s → s.launch.program.word? s.pc.toNat = some w →
    decode w = .ok i →
    step s = exec i (envGap s) ∧ ∃ t : Tlbs, envGap s = { s with tlbs := t, draws := s.draws + 1 }

/-- The common prologue: fetch, row, Rd, mode, direction, in that order (R86). Derived; rests on: decision D27, the spec's
own order of checks (notes/assumptions/20.md, 22.md). -/
def Obligations.PrologueRunsInItsOrder : Prop :=
  ∀ s : State, ¬ Final s →
    (¬ PcAligned s ∨ s.launch.program.word? s.pc.toNat = none → ∃ e, step s = .refused e) ∧
    (PcAligned s → ∀ w, s.launch.program.word? s.pc.toNat = some w →
      ((∀ i, encode i ≠ w) → ∃ e, step s = .refused e) ∧
      (∀ i, encode i = w →
        (i.rd = 15 → step s = .refused .rdIsPc) ∧
        (i.rd ≠ 15 → s.launch.priv = false → step s = .fault (.undefined w s.pc)) ∧
        (i.rd ≠ 15 → s.launch.priv = true → i.alwaysUndefined = true → step s = .fault (.undefined w s.pc)) ∧
        (i.rd ≠ 15 → s.launch.priv = true → i.alwaysUndefined = false → step s = exec i (envGap s))))

/-- A word of no row is refused: unlisted, or a row's word under another condition (R83, R88). Derived; rests on: decisions
D3 and D19, the spec's own (notes/assumptions/22.md). -/
def Obligations.UnlistedWordsAreRefusedNotFaulted : Prop :=
  ∀ w : Word, (∀ i, encode i ≠ w) →
    ((∃ i, (encode i).setWidth 28 = w.setWidth 28) →
      ∀ s, fetch s = .ok w → step s = .refused .condNotAlways) ∧
    ((∀ i, (encode i).setWidth 28 ≠ w.setWidth 28) →
      ∀ s, fetch s = .ok w → step s = .refused .unlisted)

/-- Rd = 15 is refused by every form, in both directions and in every mode (R20, R86). Derived; rests on: decisions D1 and
D27, the spec's own (notes/assumptions/22.md). -/
def Obligations.RdFifteenIsRefusedInEveryMode : Prop :=
  ∀ (i : Instr) (s : State), i.rd = 15 → exec i s = .refused .rdIsPc

/-- A state with pc = END_PC is final; elsewhere outside the program a step is refused (R199, R21). Derived; rests on:
decisions D2 and D22; that a final state answers this refusal, and that a misaligned pc outside the program is refused as
misaligned, are the model's choices (notes/assumptions/16.md, 26.md). -/
def Obligations.RunEndsAtEndPc : Prop :=
  ∀ s : State,
    (Final s → step s = .refused .runEnded) ∧
    (¬ Final s → ¬ PcAligned s → step s = .refused .pcMisaligned) ∧
    (¬ Final s → PcAligned s → s.launch.program.word? s.pc.toNat = none → step s = .refused .outsideProgram)

/-- A word placed with withFetchWord is the one the next step fetches, and the program stays canonical (R62, R199, R86).
Derived; rests on: how a word is placed is the model's choice (notes/assumptions/4.md, 14.md). -/
def Obligations.PlacedWordIsFetchedNext : Prop :=
  ∀ (s : State) (w : Word), PcAligned s → s.launch.program.Wf →
    fetch (s.withFetchWord 32 w.toNat) = .ok w ∧ (s.withFetchWord 32 w.toNat).launch.program.Wf ∧
    ∀ a, a ≠ s.pc.toNat → (s.withFetchWord 32 w.toNat).launch.program.word? a = s.launch.program.word? a

/-- The Undefined exception is raised by exactly these attempts, and by nothing else (R160). -/
def Obligations.CausesOfTheUndefinedException : Prop :=
  ∀ (i : Instr) (s : State) (f : Fault), i.wellFormed = true →
    (exec i s = .fault f ↔
      f = .undefined (encode i) s.pc ∧
        (s.launch.priv = false ∨
          i ∈ [Instr.mrcRmte i.rd, .mrcWmte i.rd, .mcrDmva i.rd, .mcrImva i.rd, .mcrDmpa i.rd, .mcrImpa i.rd, .mcrDmattr i.rd,
            .mcrImattr i.rd]))

/-- The eight always-Undefined forms decode and take the Undefined exception in every mode (R90, R112, R113, R124, R125,
R134, R135, R144, R145). -/
def Obligations.AlwaysUndefinedFormsFaultInEveryMode : Prop :=
  ∀ (r : Fin 15) (s : State),
    let rd := BitVec.ofNat 32 r.val <<< 12
    decode (0xEEBF0F54#32 ||| rd) = .ok (.mrcRmte (rdOf r)) ∧
    exec (.mrcRmte (rdOf r)) s = .fault (.undefined (0xEEBF0F54#32 ||| rd) s.pc) ∧
    decode (0xEEBF0F94#32 ||| rd) = .ok (.mrcWmte (rdOf r)) ∧
    exec (.mrcWmte (rdOf r)) s = .fault (.undefined (0xEEBF0F94#32 ||| rd) s.pc) ∧
    decode (0xEEAF0F15#32 ||| rd) = .ok (.mcrDmva (rdOf r)) ∧
    exec (.mcrDmva (rdOf r)) s = .fault (.undefined (0xEEAF0F15#32 ||| rd) s.pc) ∧
    decode (0xEEAF0F35#32 ||| rd) = .ok (.mcrImva (rdOf r)) ∧
    exec (.mcrImva (rdOf r)) s = .fault (.undefined (0xEEAF0F35#32 ||| rd) s.pc) ∧
    decode (0xEEAF0F16#32 ||| rd) = .ok (.mcrDmpa (rdOf r)) ∧
    exec (.mcrDmpa (rdOf r)) s = .fault (.undefined (0xEEAF0F16#32 ||| rd) s.pc) ∧
    decode (0xEEAF0F36#32 ||| rd) = .ok (.mcrImpa (rdOf r)) ∧
    exec (.mcrImpa (rdOf r)) s = .fault (.undefined (0xEEAF0F36#32 ||| rd) s.pc) ∧
    decode (0xEEAF0F17#32 ||| rd) = .ok (.mcrDmattr (rdOf r)) ∧
    exec (.mcrDmattr (rdOf r)) s = .fault (.undefined (0xEEAF0F17#32 ||| rd) s.pc) ∧
    decode (0xEEAF0F37#32 ||| rd) = .ok (.mcrImattr (rdOf r)) ∧
    exec (.mcrImattr (rdOf r)) s = .fault (.undefined (0xEEAF0F37#32 ||| rd) s.pc)

/-- A form that takes the Undefined exception examines no value: only its word, the mode and the pc matter (R163, R165).
Derived; rests on: an inference the spec draws from the access tables, and decision D27 (notes/assumptions/7.md). -/
def Obligations.UndefinedIgnoresEverythingButModeAndPc : Prop :=
  ∀ (i : Instr) (s s' : State) (f : Fault), exec i s = .fault f → s'.pc = s.pc → s'.launch.priv = s.launch.priv →
    exec i s' = .fault f

/-- A User-mode step can neither observe nor change an entry, an index, a holding register or TLBDBG (R170). Derived. -/
def Obligations.UserModeObservesNothing : Prop :=
  ∀ s s' : State, s.launch.priv = false → s'.pc = s.pc → s'.launch = s.launch →
    step s' = step s ∧ ∀ t, step s ≠ .next t

/-- MRC of DMIDX: 28 free bits above Index, in a privileged mode; Undefined in User mode (R100). -/
def Obligations.ReadDataMicroTlbIndex : Prop :=
  ∀ (r : Fin 15) (s : State),
    encode (.mrcDmidx (rdOf r)) = 0xEEBF0F14#32 ||| (BitVec.ofNat 32 r.val <<< 12) ∧
    UserUndefined (.mrcDmidx (rdOf r)) s ∧
    (Ready s → ReadAnswers s r (exec (.mrcDmidx (rdOf r)) s) fun v => ∃ d : BitVec 28, v = d ++ s.dmidx)

/-- MCR of DMIDX: Index takes bits [3:0]; non-zero bits [31:4] are refused (R101). The refusal is decision D9's
(notes/assumptions/17.md). -/
def Obligations.WriteDataMicroTlbIndex : Prop :=
  ∀ (r : Fin 15) (s : State),
    encode (.mcrDmidx (rdOf r)) = 0xEEAF0F14#32 ||| (BitVec.ofNat 32 r.val <<< 12) ∧
    UserUndefined (.mcrDmidx (rdOf r)) s ∧
    (Ready s →
      (s.x[r].extractLsb' 4 28 ≠ 0 → exec (.mcrDmidx (rdOf r)) s = .refused .sbzDmidx) ∧
      (s.x[r].extractLsb' 4 28 = 0 →
        exec (.mcrDmidx (rdOf r)) s = .next { s with dmidx := s.x[r].extractLsb' 0 4, pc := s.pc + 4 }))

/-- MRC of IMIDX: 28 free bits above Index, in a privileged mode; Undefined in User mode (R102). -/
def Obligations.ReadInstructionMicroTlbIndex : Prop :=
  ∀ (r : Fin 15) (s : State),
    encode (.mrcImidx (rdOf r)) = 0xEEBF0F34#32 ||| (BitVec.ofNat 32 r.val <<< 12) ∧
    UserUndefined (.mrcImidx (rdOf r)) s ∧
    (Ready s → ReadAnswers s r (exec (.mrcImidx (rdOf r)) s) fun v => ∃ d : BitVec 28, v = d ++ s.imidx)

/-- MCR of IMIDX: Index takes bits [3:0]; non-zero bits [31:4] are refused (R103). The refusal is decision D9's
(notes/assumptions/17.md). -/
def Obligations.WriteInstructionMicroTlbIndex : Prop :=
  ∀ (r : Fin 15) (s : State),
    encode (.mcrImidx (rdOf r)) = 0xEEAF0F34#32 ||| (BitVec.ofNat 32 r.val <<< 12) ∧
    UserUndefined (.mcrImidx (rdOf r)) s ∧
    (Ready s →
      (s.x[r].extractLsb' 4 28 ≠ 0 → exec (.mcrImidx (rdOf r)) s = .refused .sbzImidx) ∧
      (s.x[r].extractLsb' 4 28 = 0 →
        exec (.mcrImidx (rdOf r)) s = .next { s with imidx := s.x[r].extractLsb' 0 4, pc := s.pc + 4 }))

/-- MCR of RMTE copies the selected main TLB entry into MTVA, MTPA, MTATTR (R110). Under decision D7, a premise; the refusals
are decision D9's (notes/assumptions/8.md, 17.md). -/
def Obligations.LoadHoldingRegistersFromMainTlb : Prop :=
  ∀ (r : Fin 15) (s : State),
    encode (.mcrRmte (rdOf r)) = 0xEEAF0F54#32 ||| (BitVec.ofNat 32 r.val <<< 12) ∧
    UserUndefined (.mcrRmte (rdOf r)) s ∧
    (Ready s → TransfersOnEntryWrite s →
      (s.x[r].extractLsb' 6 25 ≠ 0 → exec (.mcrRmte (rdOf r)) s = .refused .sbzRmte) ∧
      (s.x[r].extractLsb' 6 25 = 0 → s.x[r].getLsbD 31 = true → s.x[r].extractLsb' 3 3 ≠ 0 →
        exec (.mcrRmte (rdOf r)) s = .refused .sbzRmteLk) ∧
      (∀ (way : Fin 2) (set : Fin 32), s.x[r].toNat = 32 * way.val + set.val →
        exec (.mcrRmte (rdOf r)) s =
          .next { s with mtva := s.tlbs.setAssoc[way][set].va, mtpa := s.tlbs.setAssoc[way][set].pa,
                         mtattr := s.tlbs.setAssoc[way][set].attr, pc := s.pc + 4 }) ∧
      (∀ k : Fin 8, s.x[r].toNat = 0x80000000 + k.val →
        exec (.mcrRmte (rdOf r)) s =
          .next { s with mtva := s.tlbs.lockable[k].va, mtpa := s.tlbs.lockable[k].pa,
                         mtattr := s.tlbs.lockable[k].attr, pc := s.pc + 4 }))

/-- MCR of WMTE commits MTVA, MTPA, MTATTR to the selected main TLB entry after its checks (R111). Under decision D7, a
premise; the refusals are decisions D9's and D11's, globality is D26's (notes/assumptions/8.md, 17.md, 18.md). -/
def Obligations.CommitHoldingRegistersToMainTlb : Prop :=
  ∀ (r : Fin 15) (s : State),
    encode (.mcrWmte (rdOf r)) = 0xEEAF0F94#32 ||| (BitVec.ofNat 32 r.val <<< 12) ∧
    UserUndefined (.mcrWmte (rdOf r)) s ∧
    (Ready s → TransfersOnEntryWrite s →
      let o := exec (.mcrWmte (rdOf r)) s
      let v := s.x[r]
      let vpnClear := s.mtva &&& untrans (s.mtpa.extractLsb' 6 4) = 0
      let globalOk := s.mtattr.getLsbD 25 = false ∨ s.launch.isGlobal (s.mtva.extractLsb' 0 10) = true
      let new : TlbEntry := ⟨s.mtva, s.mtpa, s.mtattr⟩
      (v.extractLsb' 6 25 ≠ 0 → o = .refused .sbzWmte) ∧
      (v.extractLsb' 6 25 = 0 → v.getLsbD 31 = true → v.extractLsb' 3 3 ≠ 0 → o = .refused .sbzWmteLk) ∧
      (WfSel v → ¬ WfPa s.mtpa → o = .refused .commitPa) ∧
      (WfSel v → WfPa s.mtpa → ¬ WfAttr s.mtattr → o = .refused .commitAttr) ∧
      (WfSel v → WfPa s.mtpa → WfAttr s.mtattr → ¬ vpnClear → o = .refused .commitVpn) ∧
      (WfSel v → WfPa s.mtpa → WfAttr s.mtattr → vpnClear → ¬ globalOk → o = .refused .commitSpvNonglobal) ∧
      (WfPa s.mtpa → WfAttr s.mtattr → vpnClear → globalOk →
        (∀ (way : Fin 2) (set : Fin 32), v.toNat = 32 * way.val + set.val →
          o = .next { s with pc := s.pc + 4, tlbs := { s.tlbs with setAssoc := s.tlbs.setAssoc.set way (s.tlbs.setAssoc[way].set set new) } }) ∧
        (∀ k : Fin 8, v.toNat = 0x80000000 + k.val →
          o = .next { s with pc := s.pc + 4, tlbs := { s.tlbs with lockable := s.tlbs.lockable.set k new } })))

/-- MRC of DMVA: the VA word of DTLBu[k] with the bits its own SZ leaves untranslated free; with an index over 10 any value
(R120). -/
def Obligations.ReadDataMicroTlbVa : Prop :=
  ∀ (r : Fin 15) (s : State),
    encode (.mrcDmva (rdOf r)) = 0xEEBF0F15#32 ||| (BitVec.ofNat 32 r.val <<< 12) ∧
    UserUndefined (.mrcDmva (rdOf r)) s ∧
    (Ready s →
      (∀ k : Fin 11, s.dmidx.toNat = k.val → ReadAnswers s r (exec (.mrcDmva (rdOf r)) s)
        (Merged s.tlbs.data[k].va (untrans (s.tlbs.data[k].pa.extractLsb' 6 4)))) ∧
      (10 < s.dmidx.toNat → ReadAnswers s r (exec (.mrcDmva (rdOf r)) s) fun _ => True))

/-- MRC of IMVA: the VA word of ITLBu[k] with the bits its own SZ leaves untranslated free; with an index over 10 any value
(R121). -/
def Obligations.ReadInstructionMicroTlbVa : Prop :=
  ∀ (r : Fin 15) (s : State),
    encode (.mrcImva (rdOf r)) = 0xEEBF0F35#32 ||| (BitVec.ofNat 32 r.val <<< 12) ∧
    UserUndefined (.mrcImva (rdOf r)) s ∧
    (Ready s →
      (∀ k : Fin 11, s.imidx.toNat = k.val → ReadAnswers s r (exec (.mrcImva (rdOf r)) s)
        (Merged s.tlbs.instruction[k].va (untrans (s.tlbs.instruction[k].pa.extractLsb' 6 4)))) ∧
      (10 < s.imidx.toNat → ReadAnswers s r (exec (.mrcImva (rdOf r)) s) fun _ => True))

/-- MRC of MTVA: the holding register, with the bits that the SZ now in MTPA leaves untranslated free (R122). Under decision
D7, a premise (notes/assumptions/8.md). -/
def Obligations.ReadMainTlbVa : Prop :=
  ∀ (r : Fin 15) (s : State),
    encode (.mrcMtva (rdOf r)) = 0xEEBF0F55#32 ||| (BitVec.ofNat 32 r.val <<< 12) ∧
    UserUndefined (.mrcMtva (rdOf r)) s ∧
    (Ready s → TransfersOnEntryWrite s → ReadAnswers s r (exec (.mrcMtva (rdOf r)) s)
      (Merged s.mtva (untrans (s.mtpa.extractLsb' 6 4))))

/-- MCR of MTVA stores all 32 bits, with no check (R123). Under decision D7, a premise (notes/assumptions/8.md). -/
def Obligations.WriteMainTlbVa : Prop :=
  ∀ (r : Fin 15) (s : State),
    encode (.mcrMtva (rdOf r)) = 0xEEAF0F55#32 ||| (BitVec.ofNat 32 r.val <<< 12) ∧
    UserUndefined (.mcrMtva (rdOf r)) s ∧
    (Ready s → TransfersOnEntryWrite s →
      exec (.mcrMtva (rdOf r)) s = .next { s with mtva := s.x[r], pc := s.pc + 4 })

/-- MRC of DMPA: the PA word of DTLBu[k] with the bits its own SZ leaves untranslated free; with an index over 10 any value
(R130). -/
def Obligations.ReadDataMicroTlbPa : Prop :=
  ∀ (r : Fin 15) (s : State),
    encode (.mrcDmpa (rdOf r)) = 0xEEBF0F16#32 ||| (BitVec.ofNat 32 r.val <<< 12) ∧
    UserUndefined (.mrcDmpa (rdOf r)) s ∧
    (Ready s →
      (∀ k : Fin 11, s.dmidx.toNat = k.val → ReadAnswers s r (exec (.mrcDmpa (rdOf r)) s)
        (Merged s.tlbs.data[k].pa (untrans (s.tlbs.data[k].pa.extractLsb' 6 4)))) ∧
      (10 < s.dmidx.toNat → ReadAnswers s r (exec (.mrcDmpa (rdOf r)) s) fun _ => True))

/-- MRC of IMPA: the PA word of ITLBu[k] with the bits its own SZ leaves untranslated free; with an index over 10 any value
(R131). -/
def Obligations.ReadInstructionMicroTlbPa : Prop :=
  ∀ (r : Fin 15) (s : State),
    encode (.mrcImpa (rdOf r)) = 0xEEBF0F36#32 ||| (BitVec.ofNat 32 r.val <<< 12) ∧
    UserUndefined (.mrcImpa (rdOf r)) s ∧
    (Ready s →
      (∀ k : Fin 11, s.imidx.toNat = k.val → ReadAnswers s r (exec (.mrcImpa (rdOf r)) s)
        (Merged s.tlbs.instruction[k].pa (untrans (s.tlbs.instruction[k].pa.extractLsb' 6 4)))) ∧
      (10 < s.imidx.toNat → ReadAnswers s r (exec (.mrcImpa (rdOf r)) s) fun _ => True))

/-- MRC of MTPA: the holding register, with the bits its own SZ leaves untranslated free (R132). Under decision D7, a premise
(notes/assumptions/8.md). -/
def Obligations.ReadMainTlbPa : Prop :=
  ∀ (r : Fin 15) (s : State),
    encode (.mrcMtpa (rdOf r)) = 0xEEBF0F56#32 ||| (BitVec.ofNat 32 r.val <<< 12) ∧
    UserUndefined (.mrcMtpa (rdOf r)) s ∧
    (Ready s → TransfersOnEntryWrite s → ReadAnswers s r (exec (.mrcMtpa (rdOf r)) s)
      (Merged s.mtpa (untrans (s.mtpa.extractLsb' 6 4))))

/-- MCR of MTPA: a main TLB size, AP not reserved, untranslated PPN bits zero, or it is refused (R133). Under decision D7, a
premise; the refusals are decisions D9's and D11's (notes/assumptions/8.md, 17.md). -/
def Obligations.WriteMainTlbPa : Prop :=
  ∀ (r : Fin 15) (s : State),
    encode (.mcrMtpa (rdOf r)) = 0xEEAF0F56#32 ||| (BitVec.ofNat 32 r.val <<< 12) ∧
    UserUndefined (.mcrMtpa (rdOf r)) s ∧
    (Ready s → TransfersOnEntryWrite s →
      let o := exec (.mcrMtpa (rdOf r)) s
      let v := s.x[r]
      let szOk := v.extractLsb' 6 4 ∈ [0b1110#4, 0b1000#4, 0b0000#4, 0b0001#4]
      (¬ szOk → o = .refused .szReservedOrMicroTlbOnly) ∧
      (szOk → v.extractLsb' 1 3 = 0b111 → o = .refused .apReserved) ∧
      (szOk → v.extractLsb' 1 3 ≠ 0b111 → v &&& untrans (v.extractLsb' 6 4) ≠ 0 → o = .refused .sbzPpn) ∧
      (szOk → v.extractLsb' 1 3 ≠ 0b111 → v &&& untrans (v.extractLsb' 6 4) = 0 →
        o = .next { s with mtpa := v, pc := s.pc + 4 }))

/-- MRC of DMATTR: six free bits, a zero at bit 25, sixteen free bits, Domain, a free XN, RGN and S of DTLBu[k]; with an
index over 10 any value (R140). -/
def Obligations.ReadDataMicroTlbAttributes : Prop :=
  ∀ (r : Fin 15) (s : State),
    encode (.mrcDmattr (rdOf r)) = 0xEEBF0F17#32 ||| (BitVec.ofNat 32 r.val <<< 12) ∧
    UserUndefined (.mrcDmattr (rdOf r)) s ∧
    (Ready s →
      (∀ k : Fin 11, s.dmidx.toNat = k.val → ReadAnswers s r (exec (.mrcDmattr (rdOf r)) s)
        (fun v => ∃ (d6 : BitVec 6) (d16 : BitVec 16) (d1 : BitVec 1), v =
          (d6 ++ 0#1 ++ d16 ++ s.tlbs.data[k].attr.extractLsb' 5 4 ++ d1 ++ s.tlbs.data[k].attr.extractLsb' 1 3 ++ s.tlbs.data[k].attr.extractLsb' 0 1 : BitVec 32))) ∧
      (10 < s.dmidx.toNat → ReadAnswers s r (exec (.mrcDmattr (rdOf r)) s) fun _ => True))

/-- MRC of IMATTR: six free bits, a zero at bit 25, sixteen free bits, Domain, XN, RGN and S of ITLBu[k]; with an index over
10 any value (R141). -/
def Obligations.ReadInstructionMicroTlbAttributes : Prop :=
  ∀ (r : Fin 15) (s : State),
    encode (.mrcImattr (rdOf r)) = 0xEEBF0F37#32 ||| (BitVec.ofNat 32 r.val <<< 12) ∧
    UserUndefined (.mrcImattr (rdOf r)) s ∧
    (Ready s →
      (∀ k : Fin 11, s.imidx.toNat = k.val → ReadAnswers s r (exec (.mrcImattr (rdOf r)) s)
        (fun v => ∃ (d6 : BitVec 6) (d16 : BitVec 16), v =
          (d6 ++ 0#1 ++ d16 ++ s.tlbs.instruction[k].attr.extractLsb' 5 4 ++ s.tlbs.instruction[k].attr.extractLsb' 4 1 ++ s.tlbs.instruction[k].attr.extractLsb' 1 3 ++ s.tlbs.instruction[k].attr.extractLsb' 0 1 : BitVec 32))) ∧
      (10 < s.imidx.toNat → ReadAnswers s r (exec (.mrcImattr (rdOf r)) s) fun _ => True))

/-- MRC of MTATTR: the holding register, with bits [24:9] free, and [31:26] too when SPV is 0 (R142). Under decision D7, a
premise (notes/assumptions/8.md). -/
def Obligations.ReadMainTlbAttributes : Prop :=
  ∀ (r : Fin 15) (s : State),
    encode (.mrcMtattr (rdOf r)) = 0xEEBF0F57#32 ||| (BitVec.ofNat 32 r.val <<< 12) ∧
    UserUndefined (.mrcMtattr (rdOf r)) s ∧
    (Ready s → TransfersOnEntryWrite s → ReadAnswers s r (exec (.mrcMtattr (rdOf r)) s)
      (Merged s.mtattr (0x01FFFE00 ||| (if s.mtattr.getLsbD 25 then 0x00000000 else 0xFC000000))))

/-- MCR of MTATTR: bits [24:9], the subpage permissions without SPV, and RGN are checked (R143). Under decision D7, a
premise; the refusals are decisions D9's and D11's (notes/assumptions/8.md, 17.md). -/
def Obligations.WriteMainTlbAttributes : Prop :=
  ∀ (r : Fin 15) (s : State),
    encode (.mcrMtattr (rdOf r)) = 0xEEAF0F57#32 ||| (BitVec.ofNat 32 r.val <<< 12) ∧
    UserUndefined (.mcrMtattr (rdOf r)) s ∧
    (Ready s → TransfersOnEntryWrite s →
      let o := exec (.mcrMtattr (rdOf r)) s
      let v := s.x[r]
      let apBad := v.getLsbD 25 = false ∧ v.extractLsb' 26 6 ≠ 0
      let rgnBad := v.extractLsb' 1 3 ∈ [0b010#3, 0b100#3, 0b101#3]
      (v.extractLsb' 9 16 ≠ 0 → o = .refused .sbzAttr) ∧
      (v.extractLsb' 9 16 = 0 → apBad → o = .refused .sbzApNoSubpages) ∧
      (v.extractLsb' 9 16 = 0 → ¬ apBad → rgnBad → o = .refused .rgnReserved) ∧
      (v.extractLsb' 9 16 = 0 → ¬ apBad → ¬ rgnBad → o = .next { s with mtattr := v, pc := s.pc + 4 }))

/-- MRC of TLBDBG: 24 free bits above the eight control bits (R150). -/
def Obligations.ReadDebugControl : Prop :=
  ∀ (r : Fin 15) (s : State),
    encode (.mrcTlbdbg (rdOf r)) = 0xEEFF0F11#32 ||| (BitVec.ofNat 32 r.val <<< 12) ∧
    UserUndefined (.mrcTlbdbg (rdOf r)) s ∧
    (Ready s → ReadAnswers s r (exec (.mrcTlbdbg (rdOf r)) s) fun v => ∃ d : BitVec 24, v = d ++ s.tlbdbg) ∧
    (Ready s → Launchable s → ReadAnswers s r (exec (.mrcTlbdbg (rdOf r)) s) fun v => v.extractLsb' 0 8 = 0)

/-- MCR of TLBDBG: bits [31:8] zero, IMM = DMM, IML = DML, or it is refused (R151). The refusals are decisions D9's and D14's
(notes/assumptions/17.md). -/
def Obligations.WriteDebugControl : Prop :=
  ∀ (r : Fin 15) (s : State),
    encode (.mcrTlbdbg (rdOf r)) = 0xEEEF0F11#32 ||| (BitVec.ofNat 32 r.val <<< 12) ∧
    UserUndefined (.mcrTlbdbg (rdOf r)) s ∧
    (Ready s →
      let o := exec (.mcrTlbdbg (rdOf r)) s
      let v := s.x[r]
      (v.extractLsb' 8 24 ≠ 0 → o = .refused .sbzTlbdbg) ∧
      (v.extractLsb' 8 24 = 0 → v.getLsbD 7 ≠ v.getLsbD 6 → o = .refused .immNeDmm) ∧
      (v.extractLsb' 8 24 = 0 → v.getLsbD 7 = v.getLsbD 6 → v.getLsbD 5 ≠ v.getLsbD 4 → o = .refused .imlNeDml) ∧
      (v.extractLsb' 8 24 = 0 → v.getLsbD 7 = v.getLsbD 6 → v.getLsbD 5 = v.getLsbD 4 →
        o = .next { s with tlbdbg := v.extractLsb' 0 8, pc := s.pc + 4 }))

/-- A privileged write completes exactly when the predicate of its register holds (R49). Derived; rests on: "the predicates
are this spec's reading" (10_state.md section 9): decisions D9, D11 and D14 (notes/assumptions/17.md). -/
def Obligations.WritesCompleteExactlyWhenWellFormed : Prop :=
  ∀ (r : Fin 15) (s : State), Ready s → TransfersOnEntryWrite s →
    (Completes (exec (.mcrDmidx (rdOf r)) s) ↔ WfIdx s.x[r]) ∧
    (Completes (exec (.mcrImidx (rdOf r)) s) ↔ WfIdx s.x[r]) ∧
    (Completes (exec (.mcrRmte (rdOf r)) s) ↔ WfSel s.x[r]) ∧
    (Completes (exec (.mcrWmte (rdOf r)) s) ↔ WfSel s.x[r] ∧ WfCommit s) ∧
    Completes (exec (.mcrMtva (rdOf r)) s) ∧
    (Completes (exec (.mcrMtpa (rdOf r)) s) ↔ WfPa s.x[r]) ∧
    (Completes (exec (.mcrMtattr (rdOf r)) s) ↔ WfAttr s.x[r]) ∧
    (Completes (exec (.mcrTlbdbg (rdOf r)) s) ↔ WfDbg s.x[r])

/-- Frame of all forms: a read writes x[Rd], a write its register, RMTE the holding registers, WMTE one entry (R66). Derived;
rests on: decision D25, the spec's own (notes/assumptions/13.md). -/
def Obligations.EachFormWritesOnlyItsOwnState : Prop :=
  ∀ (i : Instr) (s t : State), TransfersOnEntryWrite s → exec i s = .next t →
    (i.isRead = true → ∃ (r : Fin 15) (v : Word) (n : Nat), r.val = i.rd.val ∧ t = { s with x := s.x.set r v, pc := s.pc + 4, draws := n }) ∧
    (i.isRead = false →
      match i.register with
      | .dmidx => ∃ v, t = { s with dmidx := v, pc := s.pc + 4 }
      | .imidx => ∃ v, t = { s with imidx := v, pc := s.pc + 4 }
      | .mtva => ∃ v, t = { s with mtva := v, pc := s.pc + 4 }
      | .mtpa => ∃ v, t = { s with mtpa := v, pc := s.pc + 4 }
      | .mtattr => ∃ v, t = { s with mtattr := v, pc := s.pc + 4 }
      | .tlbdbg => ∃ v, t = { s with tlbdbg := v, pc := s.pc + 4 }
      | .rmte => ∃ a b c, t = { s with mtva := a, mtpa := b, mtattr := c, pc := s.pc + 4 }
      | .wmte => ∃ r : Fin 15, r.val = i.rd.val ∧
          t = { s with tlbs := s.tlbs.setMain (selectedSlot s.x[r]) ⟨s.mtva, s.mtpa, s.mtattr⟩, pc := s.pc + 4 }
      | .dmva | .imva | .dmpa | .impa | .dmattr | .imattr => False)

/-- No form writes an entry of either MicroTLB (R50, R51, R104). Derived; rests on: decision D24 for the eleven slots
(notes/assumptions/21.md). -/
def Obligations.NoInstructionWritesAMicroTlb : Prop :=
  ∀ (i : Instr) (s t : State), exec i s = .next t → t.tlbs.data = s.tlbs.data ∧ t.tlbs.instruction = s.tlbs.instruction

/-- Every step that completes goes on at pc + 4, without wrapping, from an aligned pc (R164). Derived; rests on: decision D2,
the spec's own (notes/assumptions/15.md). -/
def Obligations.EveryCompletedFormContinuesAtPcPlusFour : Prop :=
  ∀ s t : State, step s = .next t →
    PcAligned s ∧ t.pc.toNat = s.pc.toNat + 4 ∧ t.pc.toNat ≤ 0xFFFFFFFC ∧ ∀ i u, exec i s = .next u → u.pc = s.pc + 4

/-- No step changes the mode, the program, END_PC, is_global, ENDIAN or the transfer model (R11, R23, R169). Derived; rests
on: decision D16, the spec's own, and the model's choice to hold the parameters in the state (notes/assumptions/3.md). -/
def Obligations.LaunchParametersAreConstant : Prop :=
  ∀ s t : State, step s = .next t → t.launch = s.launch

/-- IMM = DMM and IML = DML is kept by every step, by refusing the write that would break it (R46). Derived; rests on:
decision D14, the spec's own (notes/assumptions/17.md). -/
def Obligations.DebugControlPairsNeverSplit : Prop :=
  (∀ s t : State, DebugPaired s → step s = .next t → DebugPaired t) ∧
  (∀ (r : Fin 15) (s : State), s.x[r].getLsbD 7 ≠ s.x[r].getLsbD 6 ∨ s.x[r].getLsbD 5 ≠ s.x[r].getLsbD 4 →
    ¬ Completes (exec (.mcrTlbdbg (rdOf r)) s)) ∧
  DebugPaired State.reset

/-- The pairs of TLBDBG, an aligned pc and a canonical program are kept by every step (R21, R46, R58, R62). Derived; rests
on: decisions D2, D14 and D29; the canonical form of the program is the model's (notes/assumptions/14.md). -/
def Obligations.EveryStepKeepsTheInvariant : Prop :=
  ∀ s t : State, Inv s → step s = .next t → Inv t

/-- The reset state meets the invariant, and every launch state has its TLBDBG pairs equal (R57, R58, R191). Derived; rests
on: decision D18; every reset value but that of TLBDBG is the model's choice (notes/assumptions/1.md, 2.md). -/
def Obligations.ResetAndLaunchStatesMeetTheInvariants : Prop :=
  Inv State.reset ∧ Launchable State.reset ∧ ∀ s : State, Launchable s → DebugPaired s

/-- After reset each of the eight TLBDBG bits is 0 (R190), so the environment may rewrite every TLB entry. Derived; the last
clause rests on 20_memory.md section 6 and decision D13, the spec's own (notes/assumptions/6.md, 10.md). -/
def Obligations.ResetEnablesEveryMatchAndLoad : Prop :=
  State.reset.tlbdbg = 0b00000000 ∧
  [imm, dmm, iml, dml, ium, dum, iul, dul].map (fun f => f State.reset.tlbdbg) = List.replicate 8 false ∧
  ∀ slot, envMayRewrite State.reset.tlbdbg slot = true

/-- While DUL = 1 no entry of the Data MicroTLB changes, and two reads of DMPA agree outside the mask (R73). Derived; rests
on: the spec's inference from decision D13 (notes/assumptions/10.md). -/
def Obligations.DataMicroTlbIsFrozenWhileDulIsSet : Prop :=
  (∀ s t : State, s.tlbdbg.getLsbD 0 = true → step s = .next t → t.tlbs.data = s.tlbs.data) ∧
  (∀ (s t u : State) (r q : Fin 15) (k : Fin 11), s.tlbdbg.getLsbD 0 = true → s.dmidx.toNat = k.val →
    exec (.mrcDmpa (rdOf r)) s = .next t → exec (.mrcDmpa (rdOf q)) (envGap t) = .next u →
    t.x[r] &&& ~~~untrans (szField s.tlbs.data[k].pa) = u.x[q] &&& ~~~untrans (szField s.tlbs.data[k].pa))

/-- While IUL = 1 no entry of the Instruction MicroTLB changes (R74). Derived; rests on: the spec's inference from decision
D13 (notes/assumptions/10.md). -/
def Obligations.InstructionMicroTlbIsFrozenWhileIulIsSet : Prop :=
  ∀ s t : State, s.tlbdbg.getLsbD 1 = true → step s = .next t → t.tlbs.instruction = s.tlbs.instruction

/-- While IML = DML = 1 the environment changes no main TLB entry, and only a write to WMTE changes one (R75). Derived; rests
on: the spec's inference from decision D13 (notes/assumptions/10.md). -/
def Obligations.OnlyWmteChangesAFrozenMainTlb : Prop :=
  ∀ s : State, s.tlbdbg.getLsbD 5 = true → s.tlbdbg.getLsbD 4 = true →
    (∀ slot, (envGap s).tlbs.mainEntry slot = s.tlbs.mainEntry slot) ∧
    (TransfersOnEntryWrite s → ∀ t slot, step s = .next t → t.tlbs.mainEntry slot ≠ s.tlbs.mainEntry slot →
      ∃ rd, fetchInstr s = .ok (.mcrWmte rd))

/-- A TLBEnv step replaces one entry of one TLB by any record, iff that TLB's switch is enabled (R72). Derived; rests on:
decision D13, the spec's own; that a gap is a list of moves is the model's choice (notes/assumptions/6.md, 10.md). -/
def Obligations.EnvironmentRewritesOnlyEnabledTlbs : Prop :=
  (∀ (dbg : BitVec 8) (t : Tlbs) (e : TlbEntry) (slot other : TlbSlot),
    let enabled := match slot with
      | .data _ => dbg.getLsbD 0 = false
      | .instruction _ => dbg.getLsbD 1 = false
      | .main _ => dbg.getLsbD 4 = false ∨ dbg.getLsbD 5 = false
    (enabled → (envStep dbg t ⟨slot, e⟩).entry slot = e) ∧
    (other ≠ slot → (envStep dbg t ⟨slot, e⟩).entry other = t.entry other) ∧
    (¬ enabled → envStep dbg t ⟨slot, e⟩ = t)) ∧
  (∀ s : State, ∃ moves : List EnvMove, ∃ n,
    envGap s = { s with tlbs := moves.foldl (envStep s.tlbdbg) s.tlbs, draws := n })

/-- IMM, DMM, IUM and DUM gate neither the environment nor any access to the registers (R76). Derived; rests on: "this spec's
reading" (20_memory.md section 6), decision D13 (notes/assumptions/10.md). -/
def Obligations.MatchBitsGateNothing : Prop :=
  (∀ (s : State) (d : BitVec 8), d &&& 0b00110011 = s.tlbdbg &&& 0b00110011 →
    envGap { s with tlbdbg := d } = { envGap s with tlbdbg := d }) ∧
  (∀ (i : Instr) (s : State) (d : BitVec 8), i.register ≠ .tlbdbg →
    exec i { s with tlbdbg := d } = mapNext (fun t => { t with tlbdbg := d }) (exec i s))

/-- The accepted values of TLBDBG: high nibble 0, 3, C or F, low nibble free (R152). Derived; rests on: the spec's inference
from its rule on writes of TLBDBG, with decisions D9 and D14 (notes/assumptions/17.md). -/
def Obligations.AcceptedDebugControlValues : Prop :=
  ∀ (r : Fin 15) (s : State), Ready s →
    (Completes (exec (.mcrTlbdbg (rdOf r)) s) ↔
      s.x[r].extractLsb' 8 24 = 0 ∧ s.x[r].extractLsb' 4 4 ∈ [0x0#4, 0x3#4, 0xC#4, 0xF#4]) ∧
    (Completes (exec (.mcrTlbdbg (rdOf r)) s) ↔
      ∃ (m l : BitVec 1) (u : BitVec 4), s.x[r] = (0#24 ++ m ++ m ++ l ++ l ++ u : BitVec 32))

/-- A selector is accepted iff it is 32 way + set or 0x80000000 + i, and it names that entry (R114). Derived; rests on: the
spec's inference from the selector format, with decision D9 (notes/assumptions/17.md). -/
def Obligations.LegalSelectorsAreTheSeventyTwo : Prop :=
  (∀ (r : Fin 15) (s : State), Ready s →
    let legal := (∃ (way : Fin 2) (set : Fin 32), s.x[r].toNat = 32 * way.val + set.val) ∨ ∃ k : Fin 8, s.x[r].toNat = 0x80000000 + k.val
    (Completes (exec (.mcrRmte (rdOf r)) s) ↔ legal) ∧
    (¬ legal → ∃ e, exec (.mcrRmte (rdOf r)) s = .refused e) ∧
    (¬ legal → ∃ e, exec (.mcrWmte (rdOf r)) s = .refused e)) ∧
  (∀ (v : Word) (way : Fin 2) (set : Fin 32), v.toNat = 32 * way.val + set.val → selectedSlot v = .setAssoc way set) ∧
  (∀ (v : Word) (k : Fin 8), v.toNat = 0x80000000 + k.val → selectedSlot v = .lockable k)

/-- untrans(SZ) is the address bits [k-1:10] of a region of 2^k bytes, and [31:10] for a reserved SZ (R38). Derived; rests
on: "This spec reads them as the address bits inside the region", decision D12 (notes/assumptions/19.md). -/
def Obligations.UntranslatedBitsLieBelowTheRegionSize : Prop :=
  ∀ (sz : BitVec 4) (n : Nat),
    (∀ z, regionSize? sz = some z → ((untrans sz).getLsbD n = true ↔ 10 ≤ n ∧ n < z.log2)) ∧
    (regionSize? sz = none → ((untrans sz).getLsbD n = true ↔ 10 ≤ n ∧ n < 32)) ∧
    untrans 0b1111 = 0x00000000 ∧ untrans 0b1110 = 0x00000C00 ∧ untrans 0b1100 = 0x00003C00 ∧ untrans 0b1000 = 0x0000FC00 ∧
    untrans 0b0000 = 0x000FFC00 ∧ untrans 0b0001 = 0x00FFFC00 ∧
    (sz ∉ [0b1111#4, 0b1110#4, 0b1100#4, 0b1000#4, 0b0000#4, 0b0001#4] → untrans sz = 0xFFFFFC00)

/-- The physical base address of a PA word is its address rounded down to the region size (R33, R38, R136). Derived; rests
on: decision D12, the spec's own (notes/assumptions/19.md). -/
def Obligations.PhysicalBaseIsTheRegionBoundary : Prop :=
  ∀ (w : Word) (z : RegionSize), regionSize? (szField w) = some z →
    (physicalBase w).toNat = w.toNat / 2 ^ z.log2 * 2 ^ z.log2

/-- What is committed to a main TLB entry is loaded back by the same selector while loads are disabled (R75, R110, R111,
R69). Derived; rests on: decisions D7, D13 and D17 (notes/assumptions/8.md, 10.md, 11.md). -/
def Obligations.CommittedEntryReadsBack : Prop :=
  ∀ (s : State) (r : Fin 15) (a b c : Word), TransfersOnEntryWrite s → s.launch.priv = true → s.pc.toNat + 8 ≤ 0xFFFFFFFC →
    s.tlbdbg.getLsbD 5 = true → s.tlbdbg.getLsbD 4 = true → WfSel s.x[r] → WfCommit s →
    ∃ t u, exec (.mcrWmte (rdOf r)) s = .next t ∧
      exec (.mcrRmte (rdOf r)) (envGap { t with mtva := a, mtpa := b, mtattr := c }) = .next u ∧
      u.mtva = s.mtva ∧ u.mtpa = s.mtpa ∧ u.mtattr = s.mtattr

/-- With DUL = 1 the three data view registers read the words of one and the same entry (R73, R120, R130, R140, R193).
Derived; rests on: decisions D6, D12 and D13 (notes/assumptions/10.md, 19.md, 21.md). -/
def Obligations.FrozenViewsShowOneEntry : Prop :=
  ∀ (s : State) (k : Fin 11) (p q r : Fin 15), s.tlbdbg.getLsbD 0 = true → s.dmidx.toNat = k.val → s.launch.priv = true →
    s.pc.toNat + 12 ≤ 0xFFFFFFFC → p ≠ q → p ≠ r → q ≠ r →
    let e := s.tlbs.data[k]
    let m := untrans (szField e.pa)
    ∃ t u v, exec (.mrcDmva (rdOf p)) (envGap s) = .next t ∧ exec (.mrcDmpa (rdOf q)) (envGap t) = .next u ∧
      exec (.mrcDmattr (rdOf r)) (envGap u) = .next v ∧
      v.x[p] &&& ~~~m = e.va &&& ~~~m ∧ v.x[q] &&& ~~~m = e.pa &&& ~~~m ∧ v.x[r] &&& 0x020001EF = e.attr &&& 0x000001EF

/-- Under the window reading, RMTE and WMTE only latch a selector (92_eei_decisions.md D7, R28). Derived; rests on: decision
D7's alternative; the details are the model's choice (notes/assumptions/9.md). -/
def Obligations.WindowSelectorsLatch : Prop :=
  ∀ (r : Fin 15) (s : State), Ready s → TransfersByWindow s → WfSel s.x[r] →
    exec (.mcrRmte (rdOf r)) s = .next { s with rmteSel := selectedSlot s.x[r], pc := s.pc + 4 } ∧
    exec (.mcrWmte (rdOf r)) s = .next { s with wmteSel := selectedSlot s.x[r], pc := s.pc + 4 }

/-- Under the window reading, MTVA, MTPA and MTATTR read the entry that RMTE selects (92_eei_decisions.md D7, R48). Derived;
rests on: decision D7's alternative; the masks are the model's choice (notes/assumptions/9.md). -/
def Obligations.WindowReadsShowTheSelectedEntry : Prop :=
  ∀ (r : Fin 15) (s : State), Ready s → TransfersByWindow s →
    let e := s.tlbs.mainEntry s.rmteSel
    ReadAnswers s r (exec (.mrcMtva (rdOf r)) s) (Merged e.va (untrans (szField e.pa))) ∧
    ReadAnswers s r (exec (.mrcMtpa (rdOf r)) s) (Merged e.pa (untrans (szField e.pa))) ∧
    ReadAnswers s r (exec (.mrcMtattr (rdOf r)) s)
      (Merged e.attr (0x01FFFE00 ||| (if e.attr.getLsbD 25 then 0x00000000 else 0xFC000000)))

/-- Under the window reading, MTVA, MTPA and MTATTR write the entry that WMTE selects (92_eei_decisions.md D7, R49). Derived;
rests on: decision D7's alternative; the checks are the model's choice (notes/assumptions/9.md). -/
def Obligations.WindowWritesGoToTheSelectedEntry : Prop :=
  ∀ (r : Fin 15) (s : State), Ready s → TransfersByWindow s →
    let e := s.tlbs.mainEntry s.wmteSel
    let writes := fun (i : Instr) (new : TlbEntry) => ∃ tlbs : Tlbs, exec i s = .next { s with tlbs := tlbs, pc := s.pc + 4 } ∧
      ∀ slot, tlbs.entry slot = if slot = .main s.wmteSel then new else s.tlbs.entry slot
    writes (.mcrMtva (rdOf r)) { e with va := s.x[r] } ∧
    (WfPa s.x[r] → writes (.mcrMtpa (rdOf r)) { e with pa := s.x[r] }) ∧
    (WfAttr s.x[r] → writes (.mcrMtattr (rdOf r)) { e with attr := s.x[r] }) ∧
    (¬ WfPa s.x[r] → ¬ Completes (exec (.mcrMtpa (rdOf r)) s)) ∧
    (¬ WfAttr s.x[r] → ¬ Completes (exec (.mcrMtattr (rdOf r)) s))

/-- An index of 11 to 15 is held, and a view read through it accesses no MicroTLB entry (R26). Derived; rests on: decision
D8, the spec's own (notes/assumptions/21.md). -/
def Obligations.IndexOverTenAccessesNoEntry : Prop :=
  ∀ (r : Fin 15) (s : State) (other : Tlbs), Ready s →
    (∀ k : BitVec 4, 10 < k.toNat → s.x[r] = k.setWidth 32 →
      exec (.mcrDmidx (rdOf r)) s = .next { s with dmidx := k, pc := s.pc + 4 } ∧
      exec (.mcrImidx (rdOf r)) s = .next { s with imidx := k, pc := s.pc + 4 }) ∧
    (10 < s.dmidx.toNat → ∀ i ∈ [Instr.mrcDmva (rdOf r), .mrcDmpa (rdOf r), .mrcDmattr (rdOf r)],
      ReadAnswers s r (exec i s) (fun _ => True) ∧
      exec i { s with tlbs := other } = mapNext (fun t => { t with tlbs := other }) (exec i s)) ∧
    (10 < s.imidx.toNat → ∀ i ∈ [Instr.mrcImva (rdOf r), .mrcImpa (rdOf r), .mrcImattr (rdOf r)],
      ReadAnswers s r (exec i s) (fun _ => True) ∧
      exec i { s with tlbs := other } = mapNext (fun t => { t with tlbs := other }) (exec i s))

/-- The data-side forms neither see nor change the instruction side, and the reverse (R56, R102, R104). Derived; rests on:
decision D6, the spec's own (notes/assumptions/21.md). -/
def Obligations.DataAndInstructionSidesAreSeparate : Prop :=
  ∀ (i : Instr) (s : State) (k : BitVec 4) (entries : Vector TlbEntry 11),
    let other := fun u : State => { u with imidx := k, tlbs := { u.tlbs with instruction := entries } }
    let other' := fun u : State => { u with dmidx := k, tlbs := { u.tlbs with data := entries } }
    (i.register ∈ [Cp15Reg.dmidx, .dmva, .dmpa, .dmattr] → exec i (other s) = mapNext other (exec i s)) ∧
    (i.register ∈ [Cp15Reg.imidx, .imva, .impa, .imattr] → exec i (other' s) = mapNext other' (exec i s))
end

