-- ==== Sys2Proof/Laws/State.lean ====
section
/-! SUPPORT. Each field of the state after each update, so that no later proof unfolds a record update. -/

namespace Sys2Proof.Machine

@[simp] theorem State.setX_x (s : State) (r : Fin 15) (v : Word) : (s.setX r v).x = s.x.set r v := rfl
@[simp] theorem State.setX_pc (s : State) (r : Fin 15) (v : Word) : (s.setX r v).pc = s.pc := rfl
@[simp] theorem State.setX_dmidx (s : State) (r : Fin 15) (v : Word) : (s.setX r v).dmidx = s.dmidx := rfl
@[simp] theorem State.setX_imidx (s : State) (r : Fin 15) (v : Word) : (s.setX r v).imidx = s.imidx := rfl
@[simp] theorem State.setX_mtva (s : State) (r : Fin 15) (v : Word) : (s.setX r v).mtva = s.mtva := rfl
@[simp] theorem State.setX_mtpa (s : State) (r : Fin 15) (v : Word) : (s.setX r v).mtpa = s.mtpa := rfl
@[simp] theorem State.setX_mtattr (s : State) (r : Fin 15) (v : Word) : (s.setX r v).mtattr = s.mtattr := rfl
@[simp] theorem State.setX_tlbdbg (s : State) (r : Fin 15) (v : Word) : (s.setX r v).tlbdbg = s.tlbdbg := rfl
@[simp] theorem State.setX_tlbs (s : State) (r : Fin 15) (v : Word) : (s.setX r v).tlbs = s.tlbs := rfl
@[simp] theorem State.setX_rmteSel (s : State) (r : Fin 15) (v : Word) : (s.setX r v).rmteSel = s.rmteSel := rfl
@[simp] theorem State.setX_wmteSel (s : State) (r : Fin 15) (v : Word) : (s.setX r v).wmteSel = s.wmteSel := rfl
@[simp] theorem State.setX_draws (s : State) (r : Fin 15) (v : Word) : (s.setX r v).draws = s.draws := rfl
@[simp] theorem State.setX_launch (s : State) (r : Fin 15) (v : Word) : (s.setX r v).launch = s.launch := rfl

@[simp] theorem State.setPc_x (s : State) (v : Word) : (s.setPc v).x = s.x := rfl
@[simp] theorem State.setPc_pc (s : State) (v : Word) : (s.setPc v).pc = v := rfl
@[simp] theorem State.setPc_dmidx (s : State) (v : Word) : (s.setPc v).dmidx = s.dmidx := rfl
@[simp] theorem State.setPc_imidx (s : State) (v : Word) : (s.setPc v).imidx = s.imidx := rfl
@[simp] theorem State.setPc_mtva (s : State) (v : Word) : (s.setPc v).mtva = s.mtva := rfl
@[simp] theorem State.setPc_mtpa (s : State) (v : Word) : (s.setPc v).mtpa = s.mtpa := rfl
@[simp] theorem State.setPc_mtattr (s : State) (v : Word) : (s.setPc v).mtattr = s.mtattr := rfl
@[simp] theorem State.setPc_tlbdbg (s : State) (v : Word) : (s.setPc v).tlbdbg = s.tlbdbg := rfl
@[simp] theorem State.setPc_tlbs (s : State) (v : Word) : (s.setPc v).tlbs = s.tlbs := rfl
@[simp] theorem State.setPc_rmteSel (s : State) (v : Word) : (s.setPc v).rmteSel = s.rmteSel := rfl
@[simp] theorem State.setPc_wmteSel (s : State) (v : Word) : (s.setPc v).wmteSel = s.wmteSel := rfl
@[simp] theorem State.setPc_draws (s : State) (v : Word) : (s.setPc v).draws = s.draws := rfl
@[simp] theorem State.setPc_launch (s : State) (v : Word) : (s.setPc v).launch = s.launch := rfl

@[simp] theorem State.setDmidx_x (s : State) (v : BitVec 4) : (s.setDmidx v).x = s.x := rfl
@[simp] theorem State.setDmidx_pc (s : State) (v : BitVec 4) : (s.setDmidx v).pc = s.pc := rfl
@[simp] theorem State.setDmidx_dmidx (s : State) (v : BitVec 4) : (s.setDmidx v).dmidx = v := rfl
@[simp] theorem State.setDmidx_imidx (s : State) (v : BitVec 4) : (s.setDmidx v).imidx = s.imidx := rfl
@[simp] theorem State.setDmidx_mtva (s : State) (v : BitVec 4) : (s.setDmidx v).mtva = s.mtva := rfl
@[simp] theorem State.setDmidx_mtpa (s : State) (v : BitVec 4) : (s.setDmidx v).mtpa = s.mtpa := rfl
@[simp] theorem State.setDmidx_mtattr (s : State) (v : BitVec 4) : (s.setDmidx v).mtattr = s.mtattr := rfl
@[simp] theorem State.setDmidx_tlbdbg (s : State) (v : BitVec 4) : (s.setDmidx v).tlbdbg = s.tlbdbg := rfl
@[simp] theorem State.setDmidx_tlbs (s : State) (v : BitVec 4) : (s.setDmidx v).tlbs = s.tlbs := rfl
@[simp] theorem State.setDmidx_rmteSel (s : State) (v : BitVec 4) : (s.setDmidx v).rmteSel = s.rmteSel := rfl
@[simp] theorem State.setDmidx_wmteSel (s : State) (v : BitVec 4) : (s.setDmidx v).wmteSel = s.wmteSel := rfl
@[simp] theorem State.setDmidx_draws (s : State) (v : BitVec 4) : (s.setDmidx v).draws = s.draws := rfl
@[simp] theorem State.setDmidx_launch (s : State) (v : BitVec 4) : (s.setDmidx v).launch = s.launch := rfl

@[simp] theorem State.setImidx_x (s : State) (v : BitVec 4) : (s.setImidx v).x = s.x := rfl
@[simp] theorem State.setImidx_pc (s : State) (v : BitVec 4) : (s.setImidx v).pc = s.pc := rfl
@[simp] theorem State.setImidx_dmidx (s : State) (v : BitVec 4) : (s.setImidx v).dmidx = s.dmidx := rfl
@[simp] theorem State.setImidx_imidx (s : State) (v : BitVec 4) : (s.setImidx v).imidx = v := rfl
@[simp] theorem State.setImidx_mtva (s : State) (v : BitVec 4) : (s.setImidx v).mtva = s.mtva := rfl
@[simp] theorem State.setImidx_mtpa (s : State) (v : BitVec 4) : (s.setImidx v).mtpa = s.mtpa := rfl
@[simp] theorem State.setImidx_mtattr (s : State) (v : BitVec 4) : (s.setImidx v).mtattr = s.mtattr := rfl
@[simp] theorem State.setImidx_tlbdbg (s : State) (v : BitVec 4) : (s.setImidx v).tlbdbg = s.tlbdbg := rfl
@[simp] theorem State.setImidx_tlbs (s : State) (v : BitVec 4) : (s.setImidx v).tlbs = s.tlbs := rfl
@[simp] theorem State.setImidx_rmteSel (s : State) (v : BitVec 4) : (s.setImidx v).rmteSel = s.rmteSel := rfl
@[simp] theorem State.setImidx_wmteSel (s : State) (v : BitVec 4) : (s.setImidx v).wmteSel = s.wmteSel := rfl
@[simp] theorem State.setImidx_draws (s : State) (v : BitVec 4) : (s.setImidx v).draws = s.draws := rfl
@[simp] theorem State.setImidx_launch (s : State) (v : BitVec 4) : (s.setImidx v).launch = s.launch := rfl

@[simp] theorem State.setMtva_x (s : State) (v : Word) : (s.setMtva v).x = s.x := rfl
@[simp] theorem State.setMtva_pc (s : State) (v : Word) : (s.setMtva v).pc = s.pc := rfl
@[simp] theorem State.setMtva_dmidx (s : State) (v : Word) : (s.setMtva v).dmidx = s.dmidx := rfl
@[simp] theorem State.setMtva_imidx (s : State) (v : Word) : (s.setMtva v).imidx = s.imidx := rfl
@[simp] theorem State.setMtva_mtva (s : State) (v : Word) : (s.setMtva v).mtva = v := rfl
@[simp] theorem State.setMtva_mtpa (s : State) (v : Word) : (s.setMtva v).mtpa = s.mtpa := rfl
@[simp] theorem State.setMtva_mtattr (s : State) (v : Word) : (s.setMtva v).mtattr = s.mtattr := rfl
@[simp] theorem State.setMtva_tlbdbg (s : State) (v : Word) : (s.setMtva v).tlbdbg = s.tlbdbg := rfl
@[simp] theorem State.setMtva_tlbs (s : State) (v : Word) : (s.setMtva v).tlbs = s.tlbs := rfl
@[simp] theorem State.setMtva_rmteSel (s : State) (v : Word) : (s.setMtva v).rmteSel = s.rmteSel := rfl
@[simp] theorem State.setMtva_wmteSel (s : State) (v : Word) : (s.setMtva v).wmteSel = s.wmteSel := rfl
@[simp] theorem State.setMtva_draws (s : State) (v : Word) : (s.setMtva v).draws = s.draws := rfl
@[simp] theorem State.setMtva_launch (s : State) (v : Word) : (s.setMtva v).launch = s.launch := rfl

@[simp] theorem State.setMtpa_x (s : State) (v : Word) : (s.setMtpa v).x = s.x := rfl
@[simp] theorem State.setMtpa_pc (s : State) (v : Word) : (s.setMtpa v).pc = s.pc := rfl
@[simp] theorem State.setMtpa_dmidx (s : State) (v : Word) : (s.setMtpa v).dmidx = s.dmidx := rfl
@[simp] theorem State.setMtpa_imidx (s : State) (v : Word) : (s.setMtpa v).imidx = s.imidx := rfl
@[simp] theorem State.setMtpa_mtva (s : State) (v : Word) : (s.setMtpa v).mtva = s.mtva := rfl
@[simp] theorem State.setMtpa_mtpa (s : State) (v : Word) : (s.setMtpa v).mtpa = v := rfl
@[simp] theorem State.setMtpa_mtattr (s : State) (v : Word) : (s.setMtpa v).mtattr = s.mtattr := rfl
@[simp] theorem State.setMtpa_tlbdbg (s : State) (v : Word) : (s.setMtpa v).tlbdbg = s.tlbdbg := rfl
@[simp] theorem State.setMtpa_tlbs (s : State) (v : Word) : (s.setMtpa v).tlbs = s.tlbs := rfl
@[simp] theorem State.setMtpa_rmteSel (s : State) (v : Word) : (s.setMtpa v).rmteSel = s.rmteSel := rfl
@[simp] theorem State.setMtpa_wmteSel (s : State) (v : Word) : (s.setMtpa v).wmteSel = s.wmteSel := rfl
@[simp] theorem State.setMtpa_draws (s : State) (v : Word) : (s.setMtpa v).draws = s.draws := rfl
@[simp] theorem State.setMtpa_launch (s : State) (v : Word) : (s.setMtpa v).launch = s.launch := rfl

@[simp] theorem State.setMtattr_x (s : State) (v : Word) : (s.setMtattr v).x = s.x := rfl
@[simp] theorem State.setMtattr_pc (s : State) (v : Word) : (s.setMtattr v).pc = s.pc := rfl
@[simp] theorem State.setMtattr_dmidx (s : State) (v : Word) : (s.setMtattr v).dmidx = s.dmidx := rfl
@[simp] theorem State.setMtattr_imidx (s : State) (v : Word) : (s.setMtattr v).imidx = s.imidx := rfl
@[simp] theorem State.setMtattr_mtva (s : State) (v : Word) : (s.setMtattr v).mtva = s.mtva := rfl
@[simp] theorem State.setMtattr_mtpa (s : State) (v : Word) : (s.setMtattr v).mtpa = s.mtpa := rfl
@[simp] theorem State.setMtattr_mtattr (s : State) (v : Word) : (s.setMtattr v).mtattr = v := rfl
@[simp] theorem State.setMtattr_tlbdbg (s : State) (v : Word) : (s.setMtattr v).tlbdbg = s.tlbdbg := rfl
@[simp] theorem State.setMtattr_tlbs (s : State) (v : Word) : (s.setMtattr v).tlbs = s.tlbs := rfl
@[simp] theorem State.setMtattr_rmteSel (s : State) (v : Word) : (s.setMtattr v).rmteSel = s.rmteSel := rfl
@[simp] theorem State.setMtattr_wmteSel (s : State) (v : Word) : (s.setMtattr v).wmteSel = s.wmteSel := rfl
@[simp] theorem State.setMtattr_draws (s : State) (v : Word) : (s.setMtattr v).draws = s.draws := rfl
@[simp] theorem State.setMtattr_launch (s : State) (v : Word) : (s.setMtattr v).launch = s.launch := rfl

@[simp] theorem State.setTlbdbg_x (s : State) (v : BitVec 8) : (s.setTlbdbg v).x = s.x := rfl
@[simp] theorem State.setTlbdbg_pc (s : State) (v : BitVec 8) : (s.setTlbdbg v).pc = s.pc := rfl
@[simp] theorem State.setTlbdbg_dmidx (s : State) (v : BitVec 8) : (s.setTlbdbg v).dmidx = s.dmidx := rfl
@[simp] theorem State.setTlbdbg_imidx (s : State) (v : BitVec 8) : (s.setTlbdbg v).imidx = s.imidx := rfl
@[simp] theorem State.setTlbdbg_mtva (s : State) (v : BitVec 8) : (s.setTlbdbg v).mtva = s.mtva := rfl
@[simp] theorem State.setTlbdbg_mtpa (s : State) (v : BitVec 8) : (s.setTlbdbg v).mtpa = s.mtpa := rfl
@[simp] theorem State.setTlbdbg_mtattr (s : State) (v : BitVec 8) : (s.setTlbdbg v).mtattr = s.mtattr := rfl
@[simp] theorem State.setTlbdbg_tlbdbg (s : State) (v : BitVec 8) : (s.setTlbdbg v).tlbdbg = v := rfl
@[simp] theorem State.setTlbdbg_tlbs (s : State) (v : BitVec 8) : (s.setTlbdbg v).tlbs = s.tlbs := rfl
@[simp] theorem State.setTlbdbg_rmteSel (s : State) (v : BitVec 8) : (s.setTlbdbg v).rmteSel = s.rmteSel := rfl
@[simp] theorem State.setTlbdbg_wmteSel (s : State) (v : BitVec 8) : (s.setTlbdbg v).wmteSel = s.wmteSel := rfl
@[simp] theorem State.setTlbdbg_draws (s : State) (v : BitVec 8) : (s.setTlbdbg v).draws = s.draws := rfl
@[simp] theorem State.setTlbdbg_launch (s : State) (v : BitVec 8) : (s.setTlbdbg v).launch = s.launch := rfl

@[simp] theorem State.setTlbs_x (s : State) (v : Tlbs) : (s.setTlbs v).x = s.x := rfl
@[simp] theorem State.setTlbs_pc (s : State) (v : Tlbs) : (s.setTlbs v).pc = s.pc := rfl
@[simp] theorem State.setTlbs_dmidx (s : State) (v : Tlbs) : (s.setTlbs v).dmidx = s.dmidx := rfl
@[simp] theorem State.setTlbs_imidx (s : State) (v : Tlbs) : (s.setTlbs v).imidx = s.imidx := rfl
@[simp] theorem State.setTlbs_mtva (s : State) (v : Tlbs) : (s.setTlbs v).mtva = s.mtva := rfl
@[simp] theorem State.setTlbs_mtpa (s : State) (v : Tlbs) : (s.setTlbs v).mtpa = s.mtpa := rfl
@[simp] theorem State.setTlbs_mtattr (s : State) (v : Tlbs) : (s.setTlbs v).mtattr = s.mtattr := rfl
@[simp] theorem State.setTlbs_tlbdbg (s : State) (v : Tlbs) : (s.setTlbs v).tlbdbg = s.tlbdbg := rfl
@[simp] theorem State.setTlbs_tlbs (s : State) (v : Tlbs) : (s.setTlbs v).tlbs = v := rfl
@[simp] theorem State.setTlbs_rmteSel (s : State) (v : Tlbs) : (s.setTlbs v).rmteSel = s.rmteSel := rfl
@[simp] theorem State.setTlbs_wmteSel (s : State) (v : Tlbs) : (s.setTlbs v).wmteSel = s.wmteSel := rfl
@[simp] theorem State.setTlbs_draws (s : State) (v : Tlbs) : (s.setTlbs v).draws = s.draws := rfl
@[simp] theorem State.setTlbs_launch (s : State) (v : Tlbs) : (s.setTlbs v).launch = s.launch := rfl

@[simp] theorem State.setRmteSel_x (s : State) (v : MainSlot) : (s.setRmteSel v).x = s.x := rfl
@[simp] theorem State.setRmteSel_pc (s : State) (v : MainSlot) : (s.setRmteSel v).pc = s.pc := rfl
@[simp] theorem State.setRmteSel_dmidx (s : State) (v : MainSlot) : (s.setRmteSel v).dmidx = s.dmidx := rfl
@[simp] theorem State.setRmteSel_imidx (s : State) (v : MainSlot) : (s.setRmteSel v).imidx = s.imidx := rfl
@[simp] theorem State.setRmteSel_mtva (s : State) (v : MainSlot) : (s.setRmteSel v).mtva = s.mtva := rfl
@[simp] theorem State.setRmteSel_mtpa (s : State) (v : MainSlot) : (s.setRmteSel v).mtpa = s.mtpa := rfl
@[simp] theorem State.setRmteSel_mtattr (s : State) (v : MainSlot) : (s.setRmteSel v).mtattr = s.mtattr := rfl
@[simp] theorem State.setRmteSel_tlbdbg (s : State) (v : MainSlot) : (s.setRmteSel v).tlbdbg = s.tlbdbg := rfl
@[simp] theorem State.setRmteSel_tlbs (s : State) (v : MainSlot) : (s.setRmteSel v).tlbs = s.tlbs := rfl
@[simp] theorem State.setRmteSel_rmteSel (s : State) (v : MainSlot) : (s.setRmteSel v).rmteSel = v := rfl
@[simp] theorem State.setRmteSel_wmteSel (s : State) (v : MainSlot) : (s.setRmteSel v).wmteSel = s.wmteSel := rfl
@[simp] theorem State.setRmteSel_draws (s : State) (v : MainSlot) : (s.setRmteSel v).draws = s.draws := rfl
@[simp] theorem State.setRmteSel_launch (s : State) (v : MainSlot) : (s.setRmteSel v).launch = s.launch := rfl

@[simp] theorem State.setWmteSel_x (s : State) (v : MainSlot) : (s.setWmteSel v).x = s.x := rfl
@[simp] theorem State.setWmteSel_pc (s : State) (v : MainSlot) : (s.setWmteSel v).pc = s.pc := rfl
@[simp] theorem State.setWmteSel_dmidx (s : State) (v : MainSlot) : (s.setWmteSel v).dmidx = s.dmidx := rfl
@[simp] theorem State.setWmteSel_imidx (s : State) (v : MainSlot) : (s.setWmteSel v).imidx = s.imidx := rfl
@[simp] theorem State.setWmteSel_mtva (s : State) (v : MainSlot) : (s.setWmteSel v).mtva = s.mtva := rfl
@[simp] theorem State.setWmteSel_mtpa (s : State) (v : MainSlot) : (s.setWmteSel v).mtpa = s.mtpa := rfl
@[simp] theorem State.setWmteSel_mtattr (s : State) (v : MainSlot) : (s.setWmteSel v).mtattr = s.mtattr := rfl
@[simp] theorem State.setWmteSel_tlbdbg (s : State) (v : MainSlot) : (s.setWmteSel v).tlbdbg = s.tlbdbg := rfl
@[simp] theorem State.setWmteSel_tlbs (s : State) (v : MainSlot) : (s.setWmteSel v).tlbs = s.tlbs := rfl
@[simp] theorem State.setWmteSel_rmteSel (s : State) (v : MainSlot) : (s.setWmteSel v).rmteSel = s.rmteSel := rfl
@[simp] theorem State.setWmteSel_wmteSel (s : State) (v : MainSlot) : (s.setWmteSel v).wmteSel = v := rfl
@[simp] theorem State.setWmteSel_draws (s : State) (v : MainSlot) : (s.setWmteSel v).draws = s.draws := rfl
@[simp] theorem State.setWmteSel_launch (s : State) (v : MainSlot) : (s.setWmteSel v).launch = s.launch := rfl

@[simp] theorem State.setDraws_x (s : State) (v : Nat) : (s.setDraws v).x = s.x := rfl
@[simp] theorem State.setDraws_pc (s : State) (v : Nat) : (s.setDraws v).pc = s.pc := rfl
@[simp] theorem State.setDraws_dmidx (s : State) (v : Nat) : (s.setDraws v).dmidx = s.dmidx := rfl
@[simp] theorem State.setDraws_imidx (s : State) (v : Nat) : (s.setDraws v).imidx = s.imidx := rfl
@[simp] theorem State.setDraws_mtva (s : State) (v : Nat) : (s.setDraws v).mtva = s.mtva := rfl
@[simp] theorem State.setDraws_mtpa (s : State) (v : Nat) : (s.setDraws v).mtpa = s.mtpa := rfl
@[simp] theorem State.setDraws_mtattr (s : State) (v : Nat) : (s.setDraws v).mtattr = s.mtattr := rfl
@[simp] theorem State.setDraws_tlbdbg (s : State) (v : Nat) : (s.setDraws v).tlbdbg = s.tlbdbg := rfl
@[simp] theorem State.setDraws_tlbs (s : State) (v : Nat) : (s.setDraws v).tlbs = s.tlbs := rfl
@[simp] theorem State.setDraws_rmteSel (s : State) (v : Nat) : (s.setDraws v).rmteSel = s.rmteSel := rfl
@[simp] theorem State.setDraws_wmteSel (s : State) (v : Nat) : (s.setDraws v).wmteSel = s.wmteSel := rfl
@[simp] theorem State.setDraws_draws (s : State) (v : Nat) : (s.setDraws v).draws = v := rfl
@[simp] theorem State.setDraws_launch (s : State) (v : Nat) : (s.setDraws v).launch = s.launch := rfl

/-- Writing a core register changes that register alone. -/
theorem State.setX_get (s : State) (r q : Fin 15) (v : Word) : (s.setX r v).x[q] = if r = q then v else s.x[q] := by
  simp [State.setX, Vector.getElem_set, Fin.ext_iff]

end Sys2Proof.Machine
end

