-- ==== Sys2Proof/Laws/Ops.lean ====
section
/-! SUPPORT. What each shared operation can do, said once: the provers cite these instead of unfolding the operations. -/

namespace Sys2Proof.Machine

/-! Advancing, the prologue, completing. -/

/-- Advancing answers a next state exactly when there is room, and then only the pc moves. -/
theorem advance_eq_next {s t : State} : advance s = .next t ↔ s.pc.toNat + 4 ≤ 0xFFFFFFFC ∧ t = s.setPc (s.pc + 4) := by
  unfold advance
  split
  · simp_all [eq_comm]
  · simp_all

/-- With room, advancing answers the state at `pc + 4`. -/
theorem advance_of_room {s : State} (h : s.pc.toNat + 4 ≤ 0xFFFFFFFC) : advance s = .next (s.setPc (s.pc + 4)) :=
  advance_eq_next.mpr ⟨h, rfl⟩

/-- Advancing never faults. -/
theorem advance_ne_fault {s : State} {f : Fault} : advance s ≠ .fault f := by
  unfold advance
  split <;> simp

/-- The prologue lets a form through exactly when `Rd` is not 15 and the mode is privileged. -/
theorem prologue_eq_next {i : Instr} {s t : State} {body : Fin 15 → Out} :
    prologue i s body = .next t ↔ ∃ h : i.rd.val < 15, s.launch.priv = true ∧ body ⟨i.rd.val, h⟩ = .next t := by
  unfold prologue takeUndefined
  split
  · split <;> simp_all
  · simp_all

/-- In a privileged mode the prologue of a well-formed form is the form's own body. -/
theorem prologue_privileged {i : Instr} {s : State} {body : Fin 15 → Out} (h : i.rd.val < 15) (hp : s.launch.priv = true) :
    prologue i s body = body ⟨i.rd.val, h⟩ := by
  simp [prologue, h, hp]

/-- In User mode the prologue of a well-formed form takes the Undefined exception. -/
theorem prologue_user {i : Instr} {s : State} {body : Fin 15 → Out} (h : i.rd.val < 15) (hp : s.launch.priv = false) :
    prologue i s body = .fault (.undefined (encode i) s.pc) := by
  simp [prologue, takeUndefined, h, hp]

/-- With `Rd = 15` the prologue refuses, in every mode. -/
theorem prologue_rdIsPc {i : Instr} {s : State} {body : Fin 15 → Out} (h : ¬ i.rd.val < 15) :
    prologue i s body = .refused .rdIsPc := by
  simp [prologue, h]

/-- If the body of a form never faults, its prologue faults in User mode only, and with the Undefined exception. -/
theorem prologue_eq_fault {i : Instr} {s : State} {body : Fin 15 → Out} {f : Fault} (hb : ∀ r g, body r ≠ .fault g) :
    prologue i s body = .fault f ↔ i.rd.val < 15 ∧ s.launch.priv = false ∧ f = .undefined (encode i) s.pc := by
  by_cases h : i.rd.val < 15
  · cases hp : s.launch.priv
    · rw [prologue_user h hp]
      simp [h, eq_comm]
    · rw [prologue_privileged h hp]
      simp [hb]
  · rw [prologue_rdIsPc h]
    simp [h]

/-- An always-Undefined form faults in every mode (given a well-formed `Rd`). -/
theorem undefinedForm_eq {i : Instr} {s : State} (h : i.rd.val < 15) :
    undefinedForm i s = .fault (.undefined (encode i) s.pc) := by
  simp [undefinedForm, prologue, takeUndefined, h]

/-- An always-Undefined form never answers a next state. -/
theorem undefinedForm_ne_next {i : Instr} {s t : State} : undefinedForm i s ≠ .next t := by
  intro h
  simp [undefinedForm, prologue_eq_next, takeUndefined] at h

/-- A completed read writes its register with the merged word, counts the draw and moves the pc, and does nothing else. -/
theorem completeRead_eq_next {r : Fin 15} {v : Readable} {s t : State} :
    completeRead r v s = .next t ↔ s.pc.toNat + 4 ≤ 0xFFFFFFFC ∧
      t = (((s.setX r (merge v (Config.freeWord s.draws))).setDraws (s.draws + 1)).setPc (s.pc + 4)) := by
  simp [completeRead, advance_eq_next]

/-- A read never faults. -/
theorem completeRead_ne_fault {r : Fin 15} {v : Readable} {s : State} {f : Fault} : completeRead r v s ≠ .fault f :=
  advance_ne_fault

/-- A write completes exactly when no check refuses and there is room. -/
theorem completeWrite_eq_next {c : Option Refusal} {u t : State} :
    completeWrite c u = .next t ↔ c = none ∧ u.pc.toNat + 4 ≤ 0xFFFFFFFC ∧ t = u.setPc (u.pc + 4) := by
  cases c <;> simp [completeWrite, advance_eq_next]

/-- A write never faults. -/
theorem completeWrite_ne_fault {c : Option Refusal} {u : State} {f : Fault} : completeWrite c u ≠ .fault f := by
  cases c <;> simp [completeWrite, advance_ne_fault]

/-- A list of checks passes exactly when none is raised. -/
theorem firstRefusal_eq_none {l : List (Bool × Refusal)} : firstRefusal l = none ↔ ∀ c ∈ l, c.1 = false := by
  induction l with
  | nil => simp [firstRefusal]
  | cons c rest ih =>
    obtain ⟨raised, r⟩ := c
    cases raised <;> simp [firstRefusal, ih]

/-- Outside its mask a merged word is the stored word, whatever the draw. -/
theorem merge_keep {r : Readable} {keep : Word} (d : Word) (h : r.mask &&& keep = 0) : merge r d &&& keep = r.stored &&& keep := by
  ext k hk
  have hk' := congrArg (fun w => w.getLsbD k) h
  simp [hk] at hk'
  by_cases hm : r.mask[k] = true
  · simp [merge, hm, hk' hm]
  · simp [merge, hm]

/-! The entries of the TLBs. -/

/-- Reading a main TLB entry after replacing one. -/
theorem Tlbs.mainEntry_setMain (t : Tlbs) (a b : MainSlot) (e : TlbEntry) :
    (t.setMain a e).mainEntry b = if a = b then e else t.mainEntry b := by
  cases a <;> cases b <;> simp [Tlbs.setMain, Tlbs.mainEntry, Vector.getElem_set, Fin.ext_iff]
  split <;> simp_all [Vector.getElem_set]

/-- Reading an entry after replacing one: the new record at that slot, the old one everywhere else. -/
theorem Tlbs.entry_setEntry (t : Tlbs) (a b : TlbSlot) (e : TlbEntry) :
    (t.setEntry a e).entry b = if a = b then e else t.entry b := by
  cases a <;> cases b <;> simp [Tlbs.setEntry, Tlbs.entry, Vector.getElem_set, Fin.ext_iff, Tlbs.mainEntry_setMain]
  all_goals (rename_i m _; cases m <;> rfl)

/-- Replacing a main TLB entry leaves both MicroTLBs alone. -/
@[simp] theorem Tlbs.setMain_data (t : Tlbs) (a : MainSlot) (e : TlbEntry) : (t.setMain a e).data = t.data := by
  cases a <;> rfl

/-- Replacing a main TLB entry leaves both MicroTLBs alone. -/
@[simp] theorem Tlbs.setMain_instruction (t : Tlbs) (a : MainSlot) (e : TlbEntry) :
    (t.setMain a e).instruction = t.instruction := by
  cases a <;> rfl

/-- Two TLB states with the same entry in every slot are equal. -/
theorem Tlbs.ext_entry {t u : Tlbs} (h : ∀ slot, t.entry slot = u.entry slot) : t = u := by
  obtain ⟨td, ti, ts, tl⟩ := t
  obtain ⟨ud, ui, us, ul⟩ := u
  have hd : td = ud := Vector.ext fun k hk => by simpa [Tlbs.entry] using h (.data ⟨k, hk⟩)
  have hi : ti = ui := Vector.ext fun k hk => by simpa [Tlbs.entry] using h (.instruction ⟨k, hk⟩)
  have hs : ts = us := Vector.ext fun k hk => Vector.ext fun q hq => by
    simpa [Tlbs.entry, Tlbs.mainEntry] using h (.main (.setAssoc ⟨k, hk⟩ ⟨q, hq⟩))
  have hl : tl = ul := Vector.ext fun k hk => by simpa [Tlbs.entry, Tlbs.mainEntry] using h (.main (.lockable ⟨k, hk⟩))
  simp [hd, hi, hs, hl]

/-! The TLB environment. -/

/-- One environment step leaves alone every slot whose switch is off, whatever it tries. -/
theorem envStep_entry_frozen {dbg : BitVec 8} {t : Tlbs} {m : EnvMove} {slot : TlbSlot} (h : envMayRewrite dbg slot = false) :
    (envStep dbg t m).entry slot = t.entry slot := by
  unfold envStep
  split
  · rw [Tlbs.entry_setEntry]
    split
    · simp_all
    · rfl
  · rfl

/-- So does any run of them. -/
theorem envRun_entry_frozen {dbg : BitVec 8} {slot : TlbSlot} (h : envMayRewrite dbg slot = false) (moves : List EnvMove) (t : Tlbs) :
    (moves.foldl (envStep dbg) t).entry slot = t.entry slot := by
  induction moves generalizing t with
  | nil => rfl
  | cons m rest ih => rw [List.foldl_cons, ih, envStep_entry_frozen h]

/-- A gap changes nothing but the TLBs and the count of draws. -/
theorem envGap_frame (s : State) : ∃ t : Tlbs, envGap s = (s.setTlbs t).setDraws (s.draws + 1) := ⟨_, rfl⟩

@[simp] theorem envGap_x (s : State) : (envGap s).x = s.x := rfl
@[simp] theorem envGap_pc (s : State) : (envGap s).pc = s.pc := rfl
@[simp] theorem envGap_dmidx (s : State) : (envGap s).dmidx = s.dmidx := rfl
@[simp] theorem envGap_imidx (s : State) : (envGap s).imidx = s.imidx := rfl
@[simp] theorem envGap_mtva (s : State) : (envGap s).mtva = s.mtva := rfl
@[simp] theorem envGap_mtpa (s : State) : (envGap s).mtpa = s.mtpa := rfl
@[simp] theorem envGap_mtattr (s : State) : (envGap s).mtattr = s.mtattr := rfl
@[simp] theorem envGap_tlbdbg (s : State) : (envGap s).tlbdbg = s.tlbdbg := rfl
@[simp] theorem envGap_rmteSel (s : State) : (envGap s).rmteSel = s.rmteSel := rfl
@[simp] theorem envGap_wmteSel (s : State) : (envGap s).wmteSel = s.wmteSel := rfl
@[simp] theorem envGap_draws (s : State) : (envGap s).draws = s.draws + 1 := rfl
@[simp] theorem envGap_launch (s : State) : (envGap s).launch = s.launch := rfl

/-! The program. -/

/-- Reading a program after placing a word. -/
theorem Program.word?_put (p : Program) (a b : Nat) (v : Word) :
    (p.put a v).word? b = if b = a then some v else p.word? b := by
  induction p with
  | nil => simp [Program.put, Program.word?]
  | cons c rest ih =>
    obtain ⟨k, w⟩ := c
    unfold Program.put
    split
    · simp [Program.word?]
    · split
      · subst_vars
        simp [Program.word?]
        split <;> simp_all
      · simp only [Program.word?, ih]
        split
        · simp_all [eq_comm]
        · rfl

/-- The addresses of a program after placing a word: the old ones and the new one. -/
theorem Program.mem_put {p : Program} {a : Nat} {v : Word} {c : Nat × Word} (h : c ∈ p.put a v) : c = (a, v) ∨ c ∈ p := by
  induction p with
  | nil => simpa [Program.put] using h
  | cons d rest ih =>
    obtain ⟨k, w⟩ := d
    unfold Program.put at h
    split at h
    · simpa using h
    · split at h
      · rcases List.mem_cons.mp h with h | h
        · exact .inl h
        · exact .inr (List.mem_cons_of_mem _ h)
      · rcases List.mem_cons.mp h with h | h
        · exact .inr (List.mem_cons.mpr (.inl h))
        · exact (ih h).imp id (List.mem_cons_of_mem _)

/-- Placing a word at a legal address keeps the canonical form. -/
theorem Program.put_wf {p : Program} (hp : p.Wf) {a : Nat} (v : Word) (h4 : a % 4 = 0) (hlt : a < 2 ^ 32) : (p.put a v).Wf := by
  refine ⟨?_, fun c hc => ?_⟩
  · have hs := hp.1
    clear hp
    induction p with
    | nil => simp [Program.put]
    | cons d rest ih =>
      obtain ⟨k, w⟩ := d
      obtain ⟨hd, hr⟩ := List.pairwise_cons.mp hs
      unfold Program.put
      split
      · rename_i hak
        refine List.pairwise_cons.mpr ⟨fun c hc => ?_, hs⟩
        rcases List.mem_cons.mp hc with rfl | hc
        · exact hak
        · exact lt_trans hak (hd c hc)
      · split
        · rename_i _ hak
          subst hak
          exact List.pairwise_cons.mpr ⟨hd, hr⟩
        · rename_i h1 h2
          refine List.pairwise_cons.mpr ⟨fun c hc => ?_, ih hr⟩
          rcases Program.mem_put hc with rfl | hc
          · simp only
            omega
          · exact hd c hc
  · rcases Program.mem_put hc with rfl | hc
    · exact ⟨h4, hlt⟩
    · exact hp.2 c hc

/-- The reset state's program is in canonical form. -/
theorem reset_program_wf : State.reset.launch.program.Wf := by decide

/-! Fetching. -/

/-- Where a run is not at its end, at an aligned address that holds a word, it fetches that word. -/
theorem fetch_eq_ok {s : State} {w : Word} :
    fetch s = .ok w ↔ s.pc ≠ s.launch.endPc ∧ s.pc.toNat % 4 = 0 ∧ s.launch.program.word? s.pc.toNat = some w := by
  unfold fetch
  split
  · simp_all
  · split
    · simp_all
    · split <;> simp_all

/-- The step answers a next state only through an instruction that decoded, run after the gap. -/
theorem step_eq_next {s t : State} : step s = .next t ↔ ∃ i, fetchInstr s = .ok i ∧ exec i (envGap s) = .next t := by
  unfold step
  split <;> simp_all

end Sys2Proof.Machine
end

