-- ==== Sys2Proof/Laws/Exec.lean ====
section
/-! SUPPORT. The meaning of each form as the shared operations it is made of, and the shapes a meaning can have: the provers
rewrite with these instead of unfolding `exec`. -/

namespace Sys2Proof.Machine

theorem exec_mrcDmidx (rd : Fin 16) (s : State) : exec (.mrcDmidx rd) s =
    prologue (.mrcDmidx rd) s fun r => completeRead r (indexReadable s.dmidx) s := rfl

theorem exec_mcrDmidx (rd : Fin 16) (s : State) : exec (.mcrDmidx rd) s =
    prologue (.mcrDmidx rd) s fun r => completeWrite (indexRefusal .sbzDmidx s.x[r]) (s.setDmidx (s.x[r].extractLsb' 0 4)) := rfl

theorem exec_mrcImidx (rd : Fin 16) (s : State) : exec (.mrcImidx rd) s =
    prologue (.mrcImidx rd) s fun r => completeRead r (indexReadable s.imidx) s := rfl

theorem exec_mcrImidx (rd : Fin 16) (s : State) : exec (.mcrImidx rd) s =
    prologue (.mcrImidx rd) s fun r => completeWrite (indexRefusal .sbzImidx s.x[r]) (s.setImidx (s.x[r].extractLsb' 0 4)) := rfl

theorem exec_mcrRmte (rd : Fin 16) (s : State) : exec (.mcrRmte rd) s =
    prologue (.mcrRmte rd) s fun r => completeWrite (selectorRefusal .sbzRmte .sbzRmteLk s.x[r]) (selectForRead s (selectedSlot s.x[r])) := rfl

theorem exec_mcrWmte (rd : Fin 16) (s : State) : exec (.mcrWmte rd) s =
    prologue (.mcrWmte rd) s fun r => completeWrite ((selectorRefusal .sbzWmte .sbzWmteLk s.x[r]).or (selectForWriteRefusal s)) (selectForWrite s (selectedSlot s.x[r])) := rfl

theorem exec_mrcRmte (rd : Fin 16) (s : State) : exec (.mrcRmte rd) s =
    undefinedForm (.mrcRmte rd) s := rfl

theorem exec_mrcWmte (rd : Fin 16) (s : State) : exec (.mrcWmte rd) s =
    undefinedForm (.mrcWmte rd) s := rfl

theorem exec_mrcDmva (rd : Fin 16) (s : State) : exec (.mrcDmva rd) s =
    prologue (.mrcDmva rd) s fun r => completeRead r (microReadable s.tlbs.data s.dmidx vaReadable) s := rfl

theorem exec_mrcImva (rd : Fin 16) (s : State) : exec (.mrcImva rd) s =
    prologue (.mrcImva rd) s fun r => completeRead r (microReadable s.tlbs.instruction s.imidx vaReadable) s := rfl

theorem exec_mrcMtva (rd : Fin 16) (s : State) : exec (.mrcMtva rd) s =
    prologue (.mrcMtva rd) s fun r => completeRead r (vaReadable (mainWindow s)) s := rfl

theorem exec_mcrMtva (rd : Fin 16) (s : State) : exec (.mcrMtva rd) s =
    prologue (.mcrMtva rd) s fun r => completeWrite (none) (writeMtva s s.x[r]) := rfl

theorem exec_mcrDmva (rd : Fin 16) (s : State) : exec (.mcrDmva rd) s =
    undefinedForm (.mcrDmva rd) s := rfl

theorem exec_mcrImva (rd : Fin 16) (s : State) : exec (.mcrImva rd) s =
    undefinedForm (.mcrImva rd) s := rfl

theorem exec_mrcDmpa (rd : Fin 16) (s : State) : exec (.mrcDmpa rd) s =
    prologue (.mrcDmpa rd) s fun r => completeRead r (microReadable s.tlbs.data s.dmidx paReadable) s := rfl

theorem exec_mrcImpa (rd : Fin 16) (s : State) : exec (.mrcImpa rd) s =
    prologue (.mrcImpa rd) s fun r => completeRead r (microReadable s.tlbs.instruction s.imidx paReadable) s := rfl

theorem exec_mrcMtpa (rd : Fin 16) (s : State) : exec (.mrcMtpa rd) s =
    prologue (.mrcMtpa rd) s fun r => completeRead r (paReadable (mainWindow s)) s := rfl

theorem exec_mcrMtpa (rd : Fin 16) (s : State) : exec (.mcrMtpa rd) s =
    prologue (.mcrMtpa rd) s fun r => completeWrite (paRefusal s.x[r]) (writeMtpa s s.x[r]) := rfl

theorem exec_mcrDmpa (rd : Fin 16) (s : State) : exec (.mcrDmpa rd) s =
    undefinedForm (.mcrDmpa rd) s := rfl

theorem exec_mcrImpa (rd : Fin 16) (s : State) : exec (.mcrImpa rd) s =
    undefinedForm (.mcrImpa rd) s := rfl

theorem exec_mrcDmattr (rd : Fin 16) (s : State) : exec (.mrcDmattr rd) s =
    prologue (.mrcDmattr rd) s fun r => completeRead r (microReadable s.tlbs.data s.dmidx dataAttrReadable) s := rfl

theorem exec_mrcImattr (rd : Fin 16) (s : State) : exec (.mrcImattr rd) s =
    prologue (.mrcImattr rd) s fun r => completeRead r (microReadable s.tlbs.instruction s.imidx instructionAttrReadable) s := rfl

theorem exec_mrcMtattr (rd : Fin 16) (s : State) : exec (.mrcMtattr rd) s =
    prologue (.mrcMtattr rd) s fun r => completeRead r (mainAttrReadable (mainWindow s)) s := rfl

theorem exec_mcrMtattr (rd : Fin 16) (s : State) : exec (.mcrMtattr rd) s =
    prologue (.mcrMtattr rd) s fun r => completeWrite (attrRefusal s.x[r]) (writeMtattr s s.x[r]) := rfl

theorem exec_mcrDmattr (rd : Fin 16) (s : State) : exec (.mcrDmattr rd) s =
    undefinedForm (.mcrDmattr rd) s := rfl

theorem exec_mcrImattr (rd : Fin 16) (s : State) : exec (.mcrImattr rd) s =
    undefinedForm (.mcrImattr rd) s := rfl

theorem exec_mrcTlbdbg (rd : Fin 16) (s : State) : exec (.mrcTlbdbg rd) s =
    prologue (.mrcTlbdbg rd) s fun r => completeRead r (debugReadable s.tlbdbg) s := rfl

theorem exec_mcrTlbdbg (rd : Fin 16) (s : State) : exec (.mcrTlbdbg rd) s =
    prologue (.mcrTlbdbg rd) s fun r => completeWrite (debugRefusal s.x[r]) (s.setTlbdbg (s.x[r].extractLsb' 0 8)) := rfl

/-- The shapes a form's own part can have after the prologue: a read, a write with its checks, or the Undefined exception. -/
inductive FormShape (i : Instr) (s : State) : (Fin 15 → Out) → Prop where
  | read (v : Readable) (h : i.isRead = true) : FormShape i s fun r => completeRead r v s
  | write (c : Fin 15 → Option Refusal) (t : Fin 15 → State) (h : i.isRead = false) :
    FormShape i s fun r => completeWrite (c r) (t r)
  | undefined (h : i.alwaysUndefined = true) : FormShape i s fun _ => takeUndefined i s

/-- Every form is the prologue around one of the shapes. -/
theorem exec_shape (i : Instr) (s : State) : ∃ body, FormShape i s body ∧ exec i s = prologue i s body := by
  cases i
  case mrcDmidx rd => exact ⟨_, .read _ rfl, exec_mrcDmidx rd s⟩
  case mcrDmidx rd =>
    exact ⟨_, .write (fun r => indexRefusal .sbzDmidx s.x[r])
      (fun r => s.setDmidx (s.x[r].extractLsb' 0 4)) rfl, exec_mcrDmidx rd s⟩
  case mrcImidx rd => exact ⟨_, .read _ rfl, exec_mrcImidx rd s⟩
  case mcrImidx rd =>
    exact ⟨_, .write (fun r => indexRefusal .sbzImidx s.x[r])
      (fun r => s.setImidx (s.x[r].extractLsb' 0 4)) rfl, exec_mcrImidx rd s⟩
  case mcrRmte rd =>
    exact ⟨_, .write (fun r => selectorRefusal .sbzRmte .sbzRmteLk s.x[r])
      (fun r => selectForRead s (selectedSlot s.x[r])) rfl, exec_mcrRmte rd s⟩
  case mcrWmte rd =>
    exact ⟨_, .write (fun r => (selectorRefusal .sbzWmte .sbzWmteLk s.x[r]).or (selectForWriteRefusal s))
      (fun r => selectForWrite s (selectedSlot s.x[r])) rfl, exec_mcrWmte rd s⟩
  case mrcRmte rd => exact ⟨_, .undefined rfl, exec_mrcRmte rd s⟩
  case mrcWmte rd => exact ⟨_, .undefined rfl, exec_mrcWmte rd s⟩
  case mrcDmva rd => exact ⟨_, .read _ rfl, exec_mrcDmva rd s⟩
  case mrcImva rd => exact ⟨_, .read _ rfl, exec_mrcImva rd s⟩
  case mrcMtva rd => exact ⟨_, .read _ rfl, exec_mrcMtva rd s⟩
  case mcrMtva rd =>
    exact ⟨_, .write (fun r => none)
      (fun r => writeMtva s s.x[r]) rfl, exec_mcrMtva rd s⟩
  case mcrDmva rd => exact ⟨_, .undefined rfl, exec_mcrDmva rd s⟩
  case mcrImva rd => exact ⟨_, .undefined rfl, exec_mcrImva rd s⟩
  case mrcDmpa rd => exact ⟨_, .read _ rfl, exec_mrcDmpa rd s⟩
  case mrcImpa rd => exact ⟨_, .read _ rfl, exec_mrcImpa rd s⟩
  case mrcMtpa rd => exact ⟨_, .read _ rfl, exec_mrcMtpa rd s⟩
  case mcrMtpa rd =>
    exact ⟨_, .write (fun r => paRefusal s.x[r])
      (fun r => writeMtpa s s.x[r]) rfl, exec_mcrMtpa rd s⟩
  case mcrDmpa rd => exact ⟨_, .undefined rfl, exec_mcrDmpa rd s⟩
  case mcrImpa rd => exact ⟨_, .undefined rfl, exec_mcrImpa rd s⟩
  case mrcDmattr rd => exact ⟨_, .read _ rfl, exec_mrcDmattr rd s⟩
  case mrcImattr rd => exact ⟨_, .read _ rfl, exec_mrcImattr rd s⟩
  case mrcMtattr rd => exact ⟨_, .read _ rfl, exec_mrcMtattr rd s⟩
  case mcrMtattr rd =>
    exact ⟨_, .write (fun r => attrRefusal s.x[r])
      (fun r => writeMtattr s s.x[r]) rfl, exec_mcrMtattr rd s⟩
  case mcrDmattr rd => exact ⟨_, .undefined rfl, exec_mcrDmattr rd s⟩
  case mcrImattr rd => exact ⟨_, .undefined rfl, exec_mcrImattr rd s⟩
  case mrcTlbdbg rd => exact ⟨_, .read _ rfl, exec_mrcTlbdbg rd s⟩
  case mcrTlbdbg rd =>
    exact ⟨_, .write (fun r => debugRefusal s.x[r])
      (fun r => s.setTlbdbg (s.x[r].extractLsb' 0 8)) rfl, exec_mcrTlbdbg rd s⟩

end Sys2Proof.Machine
end

