-- ==== Sys2Proof/Laws/PerInstr.lean ====
section
/-! SUPPORT. A family of statements about every instruction as syntax: the fields of its encoding (rules R80, R82, R84). -/

namespace Sys2Proof

/-- The word of a form carries its `Rd`, its direction bit and the coprocessor number 15, and falls under the mask of its
row whatever its `Rd`. -/
def Laws.EncodedFields.Statement (i : Instr) : Prop :=
  rdField (encode i) = i.rd ∧ (encode i).getLsbD 20 = i.isRead ∧ (encode i).extractLsb' 8 4 = 15 ∧
    opcodeMap.any (fun row => encode i &&& rowMask == row.1)

theorem Laws.EncodedFields.mrcDmidx : ∀ rd, Laws.EncodedFields.Statement (.mrcDmidx rd) := by
  unfold Laws.EncodedFields.Statement
  decide

theorem Laws.EncodedFields.mcrDmidx : ∀ rd, Laws.EncodedFields.Statement (.mcrDmidx rd) := by
  unfold Laws.EncodedFields.Statement
  decide

theorem Laws.EncodedFields.mrcImidx : ∀ rd, Laws.EncodedFields.Statement (.mrcImidx rd) := by
  unfold Laws.EncodedFields.Statement
  decide

theorem Laws.EncodedFields.mcrImidx : ∀ rd, Laws.EncodedFields.Statement (.mcrImidx rd) := by
  unfold Laws.EncodedFields.Statement
  decide

theorem Laws.EncodedFields.mcrRmte : ∀ rd, Laws.EncodedFields.Statement (.mcrRmte rd) := by
  unfold Laws.EncodedFields.Statement
  decide

theorem Laws.EncodedFields.mcrWmte : ∀ rd, Laws.EncodedFields.Statement (.mcrWmte rd) := by
  unfold Laws.EncodedFields.Statement
  decide

theorem Laws.EncodedFields.mrcRmte : ∀ rd, Laws.EncodedFields.Statement (.mrcRmte rd) := by
  unfold Laws.EncodedFields.Statement
  decide

theorem Laws.EncodedFields.mrcWmte : ∀ rd, Laws.EncodedFields.Statement (.mrcWmte rd) := by
  unfold Laws.EncodedFields.Statement
  decide

theorem Laws.EncodedFields.mrcDmva : ∀ rd, Laws.EncodedFields.Statement (.mrcDmva rd) := by
  unfold Laws.EncodedFields.Statement
  decide

theorem Laws.EncodedFields.mrcImva : ∀ rd, Laws.EncodedFields.Statement (.mrcImva rd) := by
  unfold Laws.EncodedFields.Statement
  decide

theorem Laws.EncodedFields.mrcMtva : ∀ rd, Laws.EncodedFields.Statement (.mrcMtva rd) := by
  unfold Laws.EncodedFields.Statement
  decide

theorem Laws.EncodedFields.mcrMtva : ∀ rd, Laws.EncodedFields.Statement (.mcrMtva rd) := by
  unfold Laws.EncodedFields.Statement
  decide

theorem Laws.EncodedFields.mcrDmva : ∀ rd, Laws.EncodedFields.Statement (.mcrDmva rd) := by
  unfold Laws.EncodedFields.Statement
  decide

theorem Laws.EncodedFields.mcrImva : ∀ rd, Laws.EncodedFields.Statement (.mcrImva rd) := by
  unfold Laws.EncodedFields.Statement
  decide

theorem Laws.EncodedFields.mrcDmpa : ∀ rd, Laws.EncodedFields.Statement (.mrcDmpa rd) := by
  unfold Laws.EncodedFields.Statement
  decide

theorem Laws.EncodedFields.mrcImpa : ∀ rd, Laws.EncodedFields.Statement (.mrcImpa rd) := by
  unfold Laws.EncodedFields.Statement
  decide

theorem Laws.EncodedFields.mrcMtpa : ∀ rd, Laws.EncodedFields.Statement (.mrcMtpa rd) := by
  unfold Laws.EncodedFields.Statement
  decide

theorem Laws.EncodedFields.mcrMtpa : ∀ rd, Laws.EncodedFields.Statement (.mcrMtpa rd) := by
  unfold Laws.EncodedFields.Statement
  decide

theorem Laws.EncodedFields.mcrDmpa : ∀ rd, Laws.EncodedFields.Statement (.mcrDmpa rd) := by
  unfold Laws.EncodedFields.Statement
  decide

theorem Laws.EncodedFields.mcrImpa : ∀ rd, Laws.EncodedFields.Statement (.mcrImpa rd) := by
  unfold Laws.EncodedFields.Statement
  decide

theorem Laws.EncodedFields.mrcDmattr : ∀ rd, Laws.EncodedFields.Statement (.mrcDmattr rd) := by
  unfold Laws.EncodedFields.Statement
  decide

theorem Laws.EncodedFields.mrcImattr : ∀ rd, Laws.EncodedFields.Statement (.mrcImattr rd) := by
  unfold Laws.EncodedFields.Statement
  decide

theorem Laws.EncodedFields.mrcMtattr : ∀ rd, Laws.EncodedFields.Statement (.mrcMtattr rd) := by
  unfold Laws.EncodedFields.Statement
  decide

theorem Laws.EncodedFields.mcrMtattr : ∀ rd, Laws.EncodedFields.Statement (.mcrMtattr rd) := by
  unfold Laws.EncodedFields.Statement
  decide

theorem Laws.EncodedFields.mcrDmattr : ∀ rd, Laws.EncodedFields.Statement (.mcrDmattr rd) := by
  unfold Laws.EncodedFields.Statement
  decide

theorem Laws.EncodedFields.mcrImattr : ∀ rd, Laws.EncodedFields.Statement (.mcrImattr rd) := by
  unfold Laws.EncodedFields.Statement
  decide

theorem Laws.EncodedFields.mrcTlbdbg : ∀ rd, Laws.EncodedFields.Statement (.mrcTlbdbg rd) := by
  unfold Laws.EncodedFields.Statement
  decide

theorem Laws.EncodedFields.mcrTlbdbg : ∀ rd, Laws.EncodedFields.Statement (.mcrTlbdbg rd) := by
  unfold Laws.EncodedFields.Statement
  decide

end Sys2Proof
end

