-- ==== Sys2Proof/Tests/Slice0.lean ====
section
/-! SUPPORT. Tests of the model against the vectors of spec/95_test_vectors.md, and for every obligation with hypotheses a
witness: a concrete state and operands that meet them together. Expected values are the spec's, not the model's. -/

namespace Sys2Proof.Tests

open Sys2Proof.Machine

/-! Helpers. -/

/-- Whether an outcome is a next state that passes a check. -/
def nextIs (o : Out) (p : State → Bool) : Bool :=
  match o with
  | .next t => p t
  | .fault _ => false
  | .refused _ => false

/-- Whether an outcome is this refusal. -/
def refusedIs (o : Out) (r : Refusal) : Bool :=
  match o with
  | .next _ => false
  | .fault _ => false
  | .refused q => q = r

/-- Whether an outcome is this fault. -/
def faultIs (o : Out) (f : Fault) : Bool :=
  match o with
  | .next _ => false
  | .fault g => g = f
  | .refused _ => false

theorem completes_of_nextIs {o : Out} {p : State → Bool} (h : nextIs o p = true) : ∃ t, o = .next t ∧ p t = true := by
  cases o with
  | next t => exact ⟨t, rfl, h⟩
  | fault r => simp [nextIs] at h
  | refused r => simp [nextIs] at h

/-- A privileged state with one core register set. -/
def start (r : Fin 15) (v : Word) : State := State.reset.setX r v

/-- The same state in User mode. -/
def inUser (s : State) : State := { s with launch := { s.launch with priv := false } }

/-- The same state under the window reading of decision D7. -/
def windowed (s : State) : State := { s with launch := { s.launch with transfer := .window } }

/-- A read test: the form is a completed read of `v`, and the bits of `keep`, outside its mask, read as `val`. -/
theorem read_gives {i : Instr} {s : State} {r : Fin 15} {v : Readable} {keep val : Word} (h : exec i s = completeRead r v s)
    (hpc : s.pc.toNat + 4 ≤ 0xFFFFFFFC) (hm : v.mask &&& keep = 0) (hv : v.stored &&& keep = val) :
    ∃ t, exec i s = .next t ∧ t.x[r] &&& keep = val ∧ t.pc = s.pc + 4 := by
  refine ⟨_, h.trans (completeRead_eq_next.mpr ⟨hpc, rfl⟩), ?_, rfl⟩
  have hx := State.setX_get s r r (merge v (Config.freeWord s.draws))
  rw [if_pos rfl] at hx
  exact (congrArg (· &&& keep) hx).trans ((merge_keep _ hm).trans hv)

/-! Decoding: the 28 words of 30_encoding.md rule R85 with an Rd of our own, and the refused words V30.4 to V30.11. -/

theorem test_decode_mrcDmidx : decode 0xEEBF1F14 = .ok (.mrcDmidx 1) ∧ encode (.mrcDmidx 1) = 0xEEBF1F14 := by decide
theorem test_decode_mcrDmidx : decode 0xEEAF5F14 = .ok (.mcrDmidx 5) ∧ encode (.mcrDmidx 5) = 0xEEAF5F14 := by decide
theorem test_decode_mrcImidx : decode 0xEEBF9F34 = .ok (.mrcImidx 9) ∧ encode (.mrcImidx 9) = 0xEEBF9F34 := by decide
theorem test_decode_mcrImidx : decode 0xEEAFDF34 = .ok (.mcrImidx 13) ∧ encode (.mcrImidx 13) = 0xEEAFDF34 := by decide
theorem test_decode_mcrRmte : decode 0xEEAF2F54 = .ok (.mcrRmte 2) ∧ encode (.mcrRmte 2) = 0xEEAF2F54 := by decide
theorem test_decode_mcrWmte : decode 0xEEAF6F94 = .ok (.mcrWmte 6) ∧ encode (.mcrWmte 6) = 0xEEAF6F94 := by decide
theorem test_decode_mrcRmte : decode 0xEEBFAF54 = .ok (.mrcRmte 10) ∧ encode (.mrcRmte 10) = 0xEEBFAF54 := by decide
theorem test_decode_mrcWmte : decode 0xEEBFEF94 = .ok (.mrcWmte 14) ∧ encode (.mrcWmte 14) = 0xEEBFEF94 := by decide
theorem test_decode_mrcDmva : decode 0xEEBF3F15 = .ok (.mrcDmva 3) ∧ encode (.mrcDmva 3) = 0xEEBF3F15 := by decide
theorem test_decode_mrcImva : decode 0xEEBF7F35 = .ok (.mrcImva 7) ∧ encode (.mrcImva 7) = 0xEEBF7F35 := by decide
theorem test_decode_mrcMtva : decode 0xEEBFBF55 = .ok (.mrcMtva 11) ∧ encode (.mrcMtva 11) = 0xEEBFBF55 := by decide
theorem test_decode_mcrMtva : decode 0xEEAF0F55 = .ok (.mcrMtva 0) ∧ encode (.mcrMtva 0) = 0xEEAF0F55 := by decide
theorem test_decode_mcrDmva : decode 0xEEAF4F15 = .ok (.mcrDmva 4) ∧ encode (.mcrDmva 4) = 0xEEAF4F15 := by decide
theorem test_decode_mcrImva : decode 0xEEAF8F35 = .ok (.mcrImva 8) ∧ encode (.mcrImva 8) = 0xEEAF8F35 := by decide
theorem test_decode_mrcDmpa : decode 0xEEBFCF16 = .ok (.mrcDmpa 12) ∧ encode (.mrcDmpa 12) = 0xEEBFCF16 := by decide
theorem test_decode_mrcImpa : decode 0xEEBF1F36 = .ok (.mrcImpa 1) ∧ encode (.mrcImpa 1) = 0xEEBF1F36 := by decide
theorem test_decode_mrcMtpa : decode 0xEEBF5F56 = .ok (.mrcMtpa 5) ∧ encode (.mrcMtpa 5) = 0xEEBF5F56 := by decide
theorem test_decode_mcrMtpa : decode 0xEEAF9F56 = .ok (.mcrMtpa 9) ∧ encode (.mcrMtpa 9) = 0xEEAF9F56 := by decide
theorem test_decode_mcrDmpa : decode 0xEEAFDF16 = .ok (.mcrDmpa 13) ∧ encode (.mcrDmpa 13) = 0xEEAFDF16 := by decide
theorem test_decode_mcrImpa : decode 0xEEAF2F36 = .ok (.mcrImpa 2) ∧ encode (.mcrImpa 2) = 0xEEAF2F36 := by decide
theorem test_decode_mrcDmattr : decode 0xEEBF6F17 = .ok (.mrcDmattr 6) ∧ encode (.mrcDmattr 6) = 0xEEBF6F17 := by decide
theorem test_decode_mrcImattr : decode 0xEEBFAF37 = .ok (.mrcImattr 10) ∧ encode (.mrcImattr 10) = 0xEEBFAF37 := by decide
theorem test_decode_mrcMtattr : decode 0xEEBFEF57 = .ok (.mrcMtattr 14) ∧ encode (.mrcMtattr 14) = 0xEEBFEF57 := by decide
theorem test_decode_mcrMtattr : decode 0xEEAF3F57 = .ok (.mcrMtattr 3) ∧ encode (.mcrMtattr 3) = 0xEEAF3F57 := by decide
theorem test_decode_mcrDmattr : decode 0xEEAF7F17 = .ok (.mcrDmattr 7) ∧ encode (.mcrDmattr 7) = 0xEEAF7F17 := by decide
theorem test_decode_mcrImattr : decode 0xEEAFBF37 = .ok (.mcrImattr 11) ∧ encode (.mcrImattr 11) = 0xEEAFBF37 := by decide
theorem test_decode_mrcTlbdbg : decode 0xEEFF0F11 = .ok (.mrcTlbdbg 0) ∧ encode (.mrcTlbdbg 0) = 0xEEFF0F11 := by decide
theorem test_decode_mcrTlbdbg : decode 0xEEEF4F11 = .ok (.mcrTlbdbg 4) ∧ encode (.mcrTlbdbg 4) = 0xEEEF4F11 := by decide

theorem test_decode_rejects : decode 0xEEBFFF14 = .error .rdIsPc ∧ decode 0x1EBF0F14 = .error .condNotAlways ∧
    decode 0xEEAF0F74 = .error .unlisted ∧ decode 0xEEBF0F75 = .error .unlisted ∧ decode 0xEEFF0F31 = .error .unlisted ∧
    decode 0xEEBF0E14 = .error .unlisted ∧ decode 0xEEBE0F14 = .error .unlisted ∧ decode 0xEE110F10 = .error .unlisted := by decide
theorem test_rows_do_not_overlap : opcodeMap.Pairwise (fun a b => a.1 ≠ b.1) := by decide
theorem test_rows_lie_under_the_mask : ∀ row ∈ opcodeMap, row.1 &&& rowMask = row.1 := by decide
/-- Exactly the rows marked UND in rule R85 (7, 8, 13, 14, 19, 20, 25, 26). -/
theorem test_always_undefined_rows : opcodeMap.map (fun row => (row.2 0).alwaysUndefined) =
    [false, false, false, false, false, false, true, true, false, false, false, false, true, true, false, false, false, false,
     true, true, false, false, false, false, true, true, false, false] := by decide
theorem test_decodeTableWord : decodeTableWord 32 0xEEBF0F14 = some (.mrcDmidx 0) ∧ decodeTableWord 32 0xEEBF0E14 = none := by decide

/-! WellFormed: its one check refuses Rd = 15 (V30.4). -/

theorem test_wellFormed : (Instr.mcrWmte 14).wellFormed = true ∧ (Instr.mcrWmte 15).wellFormed = false := by decide
theorem test_rd15_refused_before_the_mode : refusedIs (exec (.mrcRmte 15) (inUser State.reset)) .rdIsPc = true := by decide

/-! The masks of rule R38 (section 2.7), the PA word of rule R136 and the Attribute word of V45.13. -/

theorem test_untrans : untrans 0b1111 = 0 ∧ untrans 0b1110 = 0x00000C00 ∧ untrans 0b1100 = 0x00003C00 ∧ untrans 0b1000 = 0x0000FC00 ∧
    untrans 0b0000 = 0x000FFC00 ∧ untrans 0b0001 = 0x00FFFC00 ∧
    ∀ z ∈ [2, 3, 4, 5, 6, 7, 9, 10, 11, 13], untrans (BitVec.ofNat 4 z) = 0xFFFFFC00 := by decide
theorem test_pa_word : ppn 0x80001383 = 0x200004 ∧ physicalBase 0x80001383 = 0x80001000 ∧ szField 0x80001383 = 0b1110 ∧
    outerRegion (xrgnField 0x80001383) = .noncachable ∧ apField 0x80001383 = 0b001 ∧
    permissions? (apField 0x80001383) = some ⟨.readWrite, .noAccess⟩ ∧ validBit 0x80001383 = true := by decide
theorem test_attr_word : ap3Field 0xE600002F = 0b11 ∧ ap2Field 0xE600002F = 0b10 ∧ ap1Field 0xE600002F = 0b01 ∧
    spvBit 0xE600002F = true ∧ domainField 0xE600002F = 1 ∧ xnBit 0xE600002F = false ∧
    innerRegion? (rgnField 0xE600002F) = some .wbNoAllocateOnWrite ∧ sharedBit 0xE600002F = true ∧
    subpagePermissions? 0b00 true true = none ∧ regionSize? 0b0101 = none := by decide

/-! MicroTLB Index Registers (V41). -/

/-- `DMIDX.Index = 3`, `IMIDX.Index = 10`. -/
def indexed : State := (State.reset.setDmidx 3).setImidx 10

theorem test_mrcDmidx : ∃ t, exec (.mrcDmidx 1) indexed = .next t ∧ t.x[(1 : Fin 15)] &&& 0x0000000F = 0x3 ∧ t.pc = 4 :=
  read_gives (v := indexReadable 3) rfl (by decide) (by decide) (by decide)
theorem test_mrcImidx : ∃ t, exec (.mrcImidx 2) indexed = .next t ∧ t.x[(2 : Fin 15)] &&& 0xF = 0xA ∧ t.pc = 4 :=
  read_gives (v := indexReadable 10) rfl (by decide) (by decide) (by decide)
theorem test_mrcDmidx_user : faultIs (exec (.mrcDmidx 1) (inUser indexed)) (.undefined 0xEEBF1F14 0) = true := by decide
theorem test_mcrDmidx : nextIs (exec (.mcrDmidx 0) ((start 0 0xF).setImidx 7)) (fun t => t.dmidx = 15 ∧ t.imidx = 7 ∧ t.pc = 4) = true := by decide
theorem test_mcrDmidx_sbz : refusedIs (exec (.mcrDmidx 0) (start 0 0x10)) .sbzDmidx = true ∧
    refusedIs (exec (.mcrDmidx 0) (start 0 0xFFFFFFF3)) .sbzDmidx = true ∧
    faultIs (exec (.mcrDmidx 0) (inUser (start 0 0x10))) (.undefined 0xEEAF0F14 0) = true := by decide
theorem test_mcrImidx : nextIs (exec (.mcrImidx 5) ((start 5 0xA).setDmidx 3)) (fun t => t.imidx = 10 ∧ t.dmidx = 3) = true := by decide
theorem test_mcrImidx_sbz : refusedIs (exec (.mcrImidx 0) (start 0 0x80000003)) .sbzImidx = true := by decide

/-! Main TLB Entry Registers (V42). -/

/-- The entries of section 2.2. -/
def loaded : State := State.reset.setTlbs
  ((((Tlbs.reset.setMain (.lockable 2) ⟨0xAAAA0200, 0xBBB00007, 0x0000004D⟩).setMain (.setAssoc 1 5) ⟨0x00008123, 0x00009383, 0x00000002⟩).setMain
    (.setAssoc 1 31) ⟨1, 2, 3⟩).setMain (.lockable 7) ⟨7, 7, 7⟩)
/-- `MTVA = 0x12300200`, `MTPA = 0x45600007`, `MTATTR = 0x0000002F`. -/
def holding : State := ((State.reset.setMtva 0x12300200).setMtpa 0x45600007).setMtattr 0x0000002F
/-- Whether the holding registers are these three words. -/
def holds (a b c : Word) (t : State) : Bool := t.mtva = a ∧ t.mtpa = b ∧ t.mtattr = c
/-- Whether a main TLB entry is this record. -/
def entryIs (slot : MainSlot) (a b c : Word) (t : State) : Bool := t.tlbs.mainEntry slot = ⟨a, b, c⟩

theorem test_mcrRmte : nextIs (exec (.mcrRmte 0) (loaded.setX 0 0x80000002)) (holds 0xAAAA0200 0xBBB00007 0x0000004D) = true ∧
    nextIs (exec (.mcrRmte 0) (loaded.setX 0 0x00000025)) (holds 0x00008123 0x00009383 0x00000002) = true ∧
    nextIs (exec (.mcrRmte 0) (loaded.setX 0 0x0000003F)) (holds 1 2 3) = true ∧
    nextIs (exec (.mcrRmte 0) (loaded.setX 0 0x80000007)) (holds 7 7 7) = true := by decide
theorem test_mcrRmte_refused : refusedIs (exec (.mcrRmte 0) (loaded.setX 0 0x80000008)) .sbzRmteLk = true ∧
    refusedIs (exec (.mcrRmte 0) (loaded.setX 0 0x40)) .sbzRmte = true ∧
    refusedIs (exec (.mcrRmte 0) (loaded.setX 0 0x40000000)) .sbzRmte = true := by decide
theorem test_mcrWmte :
    nextIs (exec (.mcrWmte 1) (holding.setX 1 0x80000002)) (fun t => entryIs (.lockable 2) 0x12300200 0x45600007 0x2F t && holds 0x12300200 0x45600007 0x2F t) = true ∧
    nextIs (exec (.mcrWmte 1) (holding.setX 1 0x20)) (entryIs (.setAssoc 1 0) 0x12300200 0x45600007 0x2F) = true ∧
    nextIs (exec (.mcrWmte 1) ((holding.setX 1 0x80000002).setMtpa 0x45600006)) (entryIs (.lockable 2) 0x12300200 0x45600006 0x2F) = true ∧
    nextIs (exec (.mcrWmte 1) { (holding.setX 1 0x80000002).setMtattr 0x0200002F with launch := { Launch.reset with globalProcesses := [0x200] } })
      (entryIs (.lockable 2) 0x12300200 0x45600007 0x0200002F) = true := by decide
theorem test_mcrWmte_refused : refusedIs (exec (.mcrWmte 1) ((holding.setX 1 0x80000002).setMtpa 0x456003C7)) .commitPa = true ∧
    refusedIs (exec (.mcrWmte 1) ((holding.setX 1 0x80000002).setMtva 0x12340200)) .commitVpn = true ∧
    refusedIs (exec (.mcrWmte 1) ((holding.setX 1 0x80000002).setMtattr 0x0200002F)) .commitSpvNonglobal = true ∧
    refusedIs (exec (.mcrWmte 1) ((holding.setX 1 0x80000002).setMtattr 0x0000022F)) .commitAttr = true ∧
    refusedIs (exec (.mcrWmte 1) (holding.setX 1 0x80000010)) .sbzWmteLk = true := by decide
theorem test_mrcRmte : faultIs (exec (.mrcRmte 0) State.reset) (.undefined 0xEEBF0F54 0) = true := by decide
theorem test_mrcWmte : faultIs (exec (.mrcWmte 3) State.reset) (.undefined 0xEEBF3F94 0) = true := by decide

/-! TLB VA Registers (V43). -/

/-- `DTLBu[3]` and `ITLBu[0]` of P1 and V43.4, `DMIDX.Index = 3`. -/
def micro : State := (State.reset.setDmidx 3).setTlbs
  ((Tlbs.reset.setEntry (.data 3) ⟨0xC0001200, 0x80001383, 0x0000002F⟩).setEntry (.instruction 0) ⟨0x000087FF, 0x000093C3, 0x0000003F⟩)

theorem test_mrcDmva : ∃ t, exec (.mrcDmva 1) micro = .next t ∧ t.x[(1 : Fin 15)] &&& 0xFFFFF3FF = 0xC0001200 ∧ t.pc = 4 :=
  read_gives (v := vaReadable ⟨0xC0001200, 0x80001383, 0x0000002F⟩) rfl (by decide) (by decide) (by decide)
theorem test_mrcDmva_index_over_ten : ∃ t, exec (.mrcDmva 1) (micro.setDmidx 11) = .next t ∧ t.x[(1 : Fin 15)] &&& 0 = 0 ∧ t.pc = 4 :=
  read_gives (v := ⟨0, 0xFFFFFFFF⟩) rfl (by decide) (by decide) (by decide)
theorem test_mrcImva : ∃ t, exec (.mrcImva 0) micro = .next t ∧ t.x[(0 : Fin 15)] &&& 0xFFFFFFFF = 0x000087FF ∧ t.pc = 4 :=
  read_gives (v := vaReadable ⟨0x000087FF, 0x000093C3, 0x0000003F⟩) rfl (by decide) (by decide) (by decide)
theorem test_mrcMtva : ∃ t, exec (.mrcMtva 2) ((State.reset.setMtva 0xAB123155).setMtpa 0x45000047) = .next t ∧
    t.x[(2 : Fin 15)] &&& 0xFF0003FF = 0xAB000155 ∧ t.pc = 4 :=
  read_gives (v := vaReadable ⟨0xAB123155, 0x45000047, 0⟩) rfl (by decide) (by decide) (by decide)
theorem test_mcrMtva : nextIs (exec (.mcrMtva 4) (start 4 0xFFFFFFFF)) (fun t => t.mtva = 0xFFFFFFFF ∧ t.pc = 4) = true := by decide
theorem test_mcrDmva : faultIs (exec (.mcrDmva 0) State.reset) (.undefined 0xEEAF0F15 0) = true := by decide
theorem test_mcrImva : faultIs (exec (.mcrImva 7) State.reset) (.undefined 0xEEAF7F35 0) = true := by decide

/-! TLB PA Registers (V44). -/

theorem test_mrcDmpa : ∃ t, exec (.mrcDmpa 2) micro = .next t ∧ t.x[(2 : Fin 15)] &&& 0xFFFFF3FF = 0x80001383 ∧ t.pc = 4 :=
  read_gives (v := paReadable ⟨0xC0001200, 0x80001383, 0x0000002F⟩) rfl (by decide) (by decide) (by decide)
theorem test_mrcImpa : ∃ t, exec (.mrcImpa 0) State.reset = .next t ∧ t.x[(0 : Fin 15)] &&& 0xFFF003FF = 0 ∧ t.pc = 4 :=
  read_gives (v := paReadable ⟨0, 0, 0⟩) rfl (by decide) (by decide) (by decide)
theorem test_mrcMtpa : ∃ t, exec (.mrcMtpa 3) (State.reset.setMtpa 0x45600147) = .next t ∧ t.x[(3 : Fin 15)] &&& 0x000003FF = 0x147 ∧ t.pc = 4 :=
  read_gives (v := paReadable ⟨0, 0x45600147, 0⟩) rfl (by decide) (by decide) (by decide)
theorem test_mcrMtpa : (([0x45600007, 0x80001383, 0x80010207, 0x45000047, 0x45600009, 0x45600006, 0xFFF0003D] : List Word).all fun v =>
    nextIs (exec (.mcrMtpa 5) (start 5 v)) (fun t => t.mtpa = v)) = true := by decide
theorem test_mcrMtpa_refused :
    ((([0x456003C7, 0x45600307, 0x45600147] : List Word).all fun v => refusedIs (exec (.mcrMtpa 5) (start 5 v)) .szReservedOrMicroTlbOnly) = true) ∧
    refusedIs (exec (.mcrMtpa 5) (start 5 0x4560000F)) .apReserved = true ∧
    (([0x45600407, 0x45600047, 0x80011207] : List Word).all fun v => refusedIs (exec (.mcrMtpa 5) (start 5 v)) .sbzPpn) = true := by decide
theorem test_mcrDmpa : faultIs (exec (.mcrDmpa 0) State.reset) (.undefined 0xEEAF0F16 0) = true := by decide
theorem test_mcrImpa : faultIs (exec (.mcrImpa 9) State.reset) (.undefined 0xEEAF9F36 0) = true := by decide

/-! TLB Attribute Registers (V45). -/

theorem test_mrcDmattr : ∃ t, exec (.mrcDmattr 3) (micro.setTlbs (Tlbs.reset.setEntry (.data 3) ⟨0, 0, 0xFFFFFFFF⟩)) = .next t ∧
    t.x[(3 : Fin 15)] &&& 0x020001EF = 0x000001EF ∧ t.pc = 4 :=
  read_gives (v := dataAttrReadable ⟨0, 0, 0xFFFFFFFF⟩) rfl (by decide) (by decide) (by decide)
theorem test_mrcImattr : ∃ t, exec (.mrcImattr 0) micro = .next t ∧ t.x[(0 : Fin 15)] &&& 0x020001FF = 0x0000003F ∧ t.pc = 4 :=
  read_gives (v := instructionAttrReadable ⟨0x000087FF, 0x000093C3, 0x0000003F⟩) rfl (by decide) (by decide) (by decide)
theorem test_mrcMtattr : ∃ t, exec (.mrcMtattr 1) (State.reset.setMtattr 0xE600002F) = .next t ∧ t.x[(1 : Fin 15)] &&& 0xFE0001FF = 0xE600002F ∧ t.pc = 4 :=
  read_gives (v := mainAttrReadable ⟨0, 0, 0xE600002F⟩) rfl (by decide) (by decide) (by decide)
theorem test_mrcMtattr_no_subpages : ∃ t, exec (.mrcMtattr 1) (State.reset.setMtattr 0xFC00002F) = .next t ∧
    t.x[(1 : Fin 15)] &&& 0x020001FF = 0x0000002F ∧ t.pc = 4 :=
  read_gives (v := mainAttrReadable ⟨0, 0, 0xFC00002F⟩) rfl (by decide) (by decide) (by decide)
theorem test_mcrMtattr : (([0x0000002F, 0xE600002F, 0x020001FF, 0x00000000, 0x00000002, 0x00000006, 0x0000000D] : List Word).all fun v =>
    nextIs (exec (.mcrMtattr 6) (start 6 v)) (fun t => t.mtattr = v)) = true := by decide
theorem test_mcrMtattr_refused : ((([0x0000022F, 0x0100002F] : List Word).all fun v => refusedIs (exec (.mcrMtattr 6) (start 6 v)) .sbzAttr) = true) ∧
    ((([0x4000002F, 0x0400002F] : List Word).all fun v => refusedIs (exec (.mcrMtattr 6) (start 6 v)) .sbzApNoSubpages) = true) ∧
    (([0x00000025, 0x00000029, 0x0000002B] : List Word).all fun v => refusedIs (exec (.mcrMtattr 6) (start 6 v)) .rgnReserved) = true := by decide
theorem test_mcrDmattr : faultIs (exec (.mcrDmattr 0) State.reset) (.undefined 0xEEAF0F17 0) = true := by decide
theorem test_mcrImattr : faultIs (exec (.mcrImattr 12) State.reset) (.undefined 0xEEAFCF37 0) = true := by decide

/-! TLB Debug Control Register (V46). -/

theorem test_mrcTlbdbg : ∃ t, exec (.mrcTlbdbg 0) (State.reset.setTlbdbg 0xF3) = .next t ∧ t.x[(0 : Fin 15)] &&& 0xFF = 0xF3 ∧ t.pc = 4 :=
  read_gives (v := debugReadable 0xF3) rfl (by decide) (by decide) (by decide)
theorem test_mrcTlbdbg_after_reset : ∃ t, exec (.mrcTlbdbg 0) State.reset = .next t ∧ t.x[(0 : Fin 15)] &&& 0xFF = 0 ∧ t.pc = 4 :=
  read_gives (v := debugReadable 0) rfl (by decide) (by decide) (by decide)
theorem test_mcrTlbdbg : (([0xFF, 0x03, 0x30, 0xC0, 0xCF, 0xF3, 0x00] : List Word).all fun v =>
    nextIs (exec (.mcrTlbdbg 0) ((start 0 v).setTlbdbg 0xFF)) (fun t => t.tlbdbg = v.setWidth 8)) = true := by decide
/-- The last clause is V46.11: 64 of the 256 values are accepted. -/
theorem test_mcrTlbdbg_refused : ((([0x80, 0x40] : List Word).all fun v => refusedIs (exec (.mcrTlbdbg 0) (start 0 v)) .immNeDmm) = true) ∧
    ((([0x10, 0x20] : List Word).all fun v => refusedIs (exec (.mcrTlbdbg 0) (start 0 v)) .imlNeDml) = true) ∧
    (([0x100, 0xFFFFFF00] : List Word).all fun v => refusedIs (exec (.mcrTlbdbg 0) (start 0 v)) .sbzTlbdbg) = true ∧
    ((List.range 256).filter fun n => debugRefusal (BitVec.ofNat 32 n) = none).length = 64 := by decide

/-! The step, the environment and the run (P3, P4; rules R21, R72, R199). -/

/-- A state whose next instruction is the word `w`. -/
def fetching (s : State) (w : Nat) : State := s.withFetchWord 32 w

theorem test_step_runs_from_reset : nextIs (step (fetching (start 0 3) 0xEEAF0F14)) (fun t => t.dmidx = 3 ∧ t.pc = 4) = true := by decide
theorem test_step_user : faultIs (step (fetching (inUser (start 0 3)) 0xEEAF0F14)) (.undefined 0xEEAF0F14 0) = true := by decide
theorem test_step_ends : refusedIs (step State.reset) .runEnded = true ∧
    refusedIs (step { State.reset with pc := 2 }) .pcMisaligned = true ∧ refusedIs (step { State.reset with pc := 8 }) .outsideProgram = true := by decide
theorem test_step_at_the_top :
    refusedIs (step (fetching { start 0 3 with pc := 0xFFFFFFFC } 0xEEAF0F14)) .pcPastTop = true ∧
    nextIs (step (fetching { start 0 3 with pc := 0xFFFFFFF8 } 0xEEAF0F14)) (fun t => t.pc = 0xFFFFFFFC) = true := by decide
theorem test_env_step_disabled : envStep 0x33 Tlbs.reset ⟨.data 3, ⟨1, 2, 3⟩⟩ = Tlbs.reset ∧ envStep 0x33 Tlbs.reset ⟨.instruction 3, ⟨1, 2, 3⟩⟩ = Tlbs.reset ∧
    envStep 0x33 Tlbs.reset ⟨.main (.lockable 3), ⟨1, 2, 3⟩⟩ = Tlbs.reset := by decide
theorem test_env_step_enabled : (envStep 0x30 Tlbs.reset ⟨.data 10, ⟨1, 2, 3⟩⟩).entry (.data 10) = ⟨1, 2, 3⟩ ∧
    (envStep 0x03 Tlbs.reset ⟨.main (.setAssoc 1 31), ⟨1, 2, 3⟩⟩).entry (.main (.setAssoc 1 31)) = ⟨1, 2, 3⟩ := by decide
theorem test_window : nextIs (exec (.mcrMtva 4) { windowed (start 4 0x1234) with wmteSel := .lockable 5 })
      (fun t => t.tlbs.mainEntry (.lockable 5) = ⟨0x1234, 0, 0⟩ ∧ t.mtva = 0) = true ∧
    nextIs (exec (.mcrRmte 0) (windowed (start 0 0x80000003))) (fun t => t.rmteSel = .lockable 3 ∧ t.mtva = 0) = true := by decide

/-! Witnesses: for each obligation with hypotheses, values that meet them together. -/

theorem witness_EncodedInstructionDecodesToItself : (Instr.mcrWmte 14).wellFormed = true := by decide
theorem witness_DecodedWordEncodesToItself : decode 0xEEAFEF94 = .ok (.mcrWmte 14) := by decide
theorem witness_OpcodeMapSelectsItsRows : (0xEEAFEF94 : Word) &&& 0xFFFF0FFF = 0xEEAF0F94 ∧ (0xEEAFEF94 : Word).extractLsb' 12 4 ≠ 15 ∧
    (0xEEBFFF14 : Word).extractLsb' 12 4 = 15 ∧ ∀ row ∈ opcodeMap, (0xEEAF0F74 : Word) &&& 0xFFFF0FFF ≠ row.1 := by decide
theorem witness_EncodingFollowsTheWordFormula : (Instr.mrcDmidx 1).isRead = true ∧ (Instr.mrcDmidx 1).register.location.opcode1 = 5 ∧
    (Instr.mcrTlbdbg 14).isRead = false ∧ (Instr.mcrTlbdbg 14).register.location.opcode1 = 7 := by decide
theorem witness_StepRunsTheDecodedInstruction : ¬ Final (fetching (start 0 3) 0xEEAF0F14) ∧ PcAligned (fetching (start 0 3) 0xEEAF0F14) ∧ (fetching (start 0 3) 0xEEAF0F14).launch.program.word? (fetching (start 0 3) 0xEEAF0F14).pc.toNat = some 0xEEAF0F14 ∧
    decode 0xEEAF0F14 = .ok (.mcrDmidx 0) := by decide
theorem witness_PrologueRunsInItsOrder : ¬ Final (fetching (start 0 3) 0xEEAF0F14) ∧ PcAligned (fetching (start 0 3) 0xEEAF0F14) ∧ encode (.mcrDmidx 0) = 0xEEAF0F14 ∧ (fetching (start 0 3) 0xEEAF0F14).launch.priv = true ∧
    (fetching State.reset 0xEEBFFF54).launch.program.word? 0 = some 0xEEBFFF54 ∧ encode (.mrcRmte 15) = 0xEEBFFF54 ∧
    encode (.mrcRmte 0) = 0xEEBF0F54 ∧ (Instr.mrcRmte 0).alwaysUndefined = true ∧ (Instr.mcrDmidx 0).alwaysUndefined = false ∧
    ¬ Final { State.reset with pc := 2 } ∧ ¬ PcAligned { State.reset with pc := 2 } ∧ (inUser State.reset).launch.priv = false := by decide
/-- 0xEEAF0F74 is the gap at Opcode_2 = 3 (V30.6). -/
theorem unlisted_word : ∀ i, (encode i).setWidth 28 ≠ (0xEEAF0F74#32).setWidth 28 := by
  intro i
  cases i <;> (rename_i rd; revert rd; decide)
/-- 0x1EBF0F14 is row 1 under another condition (V30.5). -/
theorem conditional_word : ∀ i, encode i ≠ 0x1EBF0F14#32 := by
  intro i
  cases i <;> (rename_i rd; revert rd; decide)
theorem witness_UnlistedWordsAreRefusedNotFaulted :
    (∀ i, encode i ≠ 0xEEAF0F74#32) ∧ (∀ i, (encode i).setWidth 28 ≠ (0xEEAF0F74#32).setWidth 28) ∧
    fetch (fetching State.reset 0xEEAF0F74) = .ok 0xEEAF0F74 ∧
    (∀ i, encode i ≠ 0x1EBF0F14#32) ∧ (∃ i, (encode i).setWidth 28 = (0x1EBF0F14#32).setWidth 28) ∧
    fetch (fetching State.reset 0x1EBF0F14) = .ok 0x1EBF0F14 :=
  ⟨fun i h => unlisted_word i (congrArg _ h), unlisted_word, by decide, conditional_word, ⟨.mrcDmidx 0, by decide⟩, by decide⟩
theorem witness_RdFifteenIsRefusedInEveryMode : (Instr.mcrTlbdbg 15).rd = 15 := by decide
theorem witness_RunEndsAtEndPc : Final State.reset ∧ ¬ Final { State.reset with pc := 2 } ∧ ¬ PcAligned { State.reset with pc := 2 } ∧
    ¬ Final { State.reset with pc := 8 } ∧ PcAligned { State.reset with pc := 8 } ∧ State.reset.launch.program.word? 8 = none := by decide
theorem witness_PlacedWordIsFetchedNext : PcAligned (fetching (start 0 3) 0xEEAF0F14) ∧ (fetching (start 0 3) 0xEEAF0F14).launch.program.Wf ∧ PcAligned { State.reset with pc := 0xFFFFFFFC } := by decide
theorem witness_CausesOfTheUndefinedException : (Instr.mrcRmte 14).wellFormed = true ∧ (inUser State.reset).launch.priv = false ∧ State.reset.launch.priv = true ∧
    faultIs (exec (.mrcRmte 14) State.reset) (.undefined 0xEEBFEF54 0) = true := by decide
theorem witness_UndefinedIgnoresEverythingButModeAndPc : exec (.mcrDmva 0) State.reset = .fault (.undefined 0xEEAF0F15 0) ∧
    micro.pc = State.reset.pc ∧ micro.launch.priv = State.reset.launch.priv ∧ micro ≠ State.reset :=
  ⟨rfl, by decide⟩
theorem witness_UserModeObservesNothing : (inUser State.reset).launch.priv = false ∧ (inUser micro).pc = (inUser State.reset).pc ∧
    (inUser micro).launch = (inUser State.reset).launch ∧ inUser micro ≠ inUser State.reset := by decide
theorem witness_ReadDataMicroTlbIndex : (inUser indexed).launch.priv = false ∧ Ready indexed := by decide
theorem witness_WriteDataMicroTlbIndex : (inUser indexed).launch.priv = false ∧ Ready (start 14 0x10) ∧ (start 14 0x10).x[(14 : Fin 15)].extractLsb' 4 28 ≠ 0 ∧
    Ready (start 14 0xF) ∧ (start 14 0xF).x[(14 : Fin 15)].extractLsb' 4 28 = 0 := by decide
theorem witness_ReadInstructionMicroTlbIndex : (inUser indexed).launch.priv = false ∧ Ready indexed := by decide
theorem witness_WriteInstructionMicroTlbIndex : (inUser indexed).launch.priv = false ∧ Ready (start 14 0x10) ∧ (start 14 0x10).x[(14 : Fin 15)].extractLsb' 4 28 ≠ 0 ∧
    Ready (start 14 0xF) ∧ (start 14 0xF).x[(14 : Fin 15)].extractLsb' 4 28 = 0 := by decide
theorem witness_LoadHoldingRegistersFromMainTlb : Ready (loaded.setX 0 0x40) ∧ TransfersOnEntryWrite loaded ∧ (loaded.setX 0 0x40).x[(0 : Fin 15)].extractLsb' 6 25 ≠ 0 ∧
    (0x80000008#32).extractLsb' 6 25 = 0 ∧ (0x80000008#32).getLsbD 31 = true ∧ (0x80000008#32).extractLsb' 3 3 ≠ 0 ∧
    (0x0000003F#32).toNat = 32 * (1 : Fin 2).val + (31 : Fin 32).val ∧ (0x80000007#32).toNat = 0x80000000 + (7 : Fin 8).val ∧
    (inUser loaded).launch.priv = false := by decide
theorem witness_CommitHoldingRegistersToMainTlb : Ready (holding.setX 1 0x80000007) ∧ TransfersOnEntryWrite holding ∧ WfSel 0x80000007 ∧ WfSel 0x3F ∧ WfCommit holding ∧
    (0x80000007#32).toNat = 0x80000000 + (7 : Fin 8).val ∧ (0x3F#32).toNat = 32 * (1 : Fin 2).val + (31 : Fin 32).val ∧
    ¬ WfPa (holding.setMtpa 0x456003C7).mtpa ∧ ¬ WfAttr (holding.setMtattr 0x22F).mtattr ∧ WfPa holding.mtpa ∧ WfAttr holding.mtattr ∧
    (0x12340200#32) &&& untrans (holding.mtpa.extractLsb' 6 4) ≠ 0 ∧ WfAttr 0x0200002F ∧
    ¬ ((0x0200002F#32).getLsbD 25 = false ∨ holding.launch.isGlobal (holding.mtva.extractLsb' 0 10) = true) ∧
    (0x40#32).extractLsb' 6 25 ≠ 0 ∧ (0x80000008#32).getLsbD 31 = true ∧ (0x80000008#32).extractLsb' 3 3 ≠ 0 ∧ (inUser holding).launch.priv = false := by decide
theorem witness_ReadDataMicroTlbVa : (inUser micro).launch.priv = false ∧ Ready (micro.setDmidx 10) ∧ (micro.setDmidx 10).dmidx.toNat = (10 : Fin 11).val ∧
    Ready (micro.setDmidx 11) ∧ 10 < (micro.setDmidx 11).dmidx.toNat := by decide
theorem witness_ReadInstructionMicroTlbVa : (inUser micro).launch.priv = false ∧ Ready (micro.setImidx 10) ∧ (micro.setImidx 10).imidx.toNat = (10 : Fin 11).val ∧
    Ready (micro.setImidx 11) ∧ 10 < (micro.setImidx 11).imidx.toNat := by decide
theorem witness_ReadDataMicroTlbPa : (inUser micro).launch.priv = false ∧ Ready (micro.setDmidx 10) ∧ (micro.setDmidx 10).dmidx.toNat = (10 : Fin 11).val ∧
    Ready (micro.setDmidx 11) ∧ 10 < (micro.setDmidx 11).dmidx.toNat := by decide
theorem witness_ReadInstructionMicroTlbPa : (inUser micro).launch.priv = false ∧ Ready (micro.setImidx 10) ∧ (micro.setImidx 10).imidx.toNat = (10 : Fin 11).val ∧
    Ready (micro.setImidx 11) ∧ 10 < (micro.setImidx 11).imidx.toNat := by decide
theorem witness_ReadDataMicroTlbAttributes : (inUser micro).launch.priv = false ∧ Ready (micro.setDmidx 10) ∧ (micro.setDmidx 10).dmidx.toNat = (10 : Fin 11).val ∧
    Ready (micro.setDmidx 11) ∧ 10 < (micro.setDmidx 11).dmidx.toNat := by decide
theorem witness_ReadInstructionMicroTlbAttributes : (inUser micro).launch.priv = false ∧ Ready (micro.setImidx 10) ∧ (micro.setImidx 10).imidx.toNat = (10 : Fin 11).val ∧
    Ready (micro.setImidx 11) ∧ 10 < (micro.setImidx 11).imidx.toNat := by decide
theorem witness_ReadMainTlbVa : (inUser holding).launch.priv = false ∧ Ready holding ∧ TransfersOnEntryWrite holding := by decide
theorem witness_ReadMainTlbPa : (inUser holding).launch.priv = false ∧ Ready holding ∧ TransfersOnEntryWrite holding := by decide
theorem witness_ReadMainTlbAttributes : (inUser holding).launch.priv = false ∧ Ready holding ∧ TransfersOnEntryWrite holding := by decide
theorem witness_WriteMainTlbVa : (inUser holding).launch.priv = false ∧ Ready holding ∧ TransfersOnEntryWrite holding := by decide
theorem witness_WriteMainTlbPa : (inUser holding).launch.priv = false ∧ Ready (start 5 0x45600007) ∧ TransfersOnEntryWrite (start 5 0x45600007) ∧ WfPa 0x45600007 ∧
    (0x456003C7#32).extractLsb' 6 4 ∉ [0b1110#4, 0b1000#4, 0b0000#4, 0b0001#4] ∧
    (0x4560000F#32).extractLsb' 6 4 ∈ [0b1110#4, 0b1000#4, 0b0000#4, 0b0001#4] ∧ (0x4560000F#32).extractLsb' 1 3 = 0b111 ∧
    (0x45600407#32).extractLsb' 6 4 ∈ [0b1110#4, 0b1000#4, 0b0000#4, 0b0001#4] ∧ (0x45600407#32).extractLsb' 1 3 ≠ 0b111 ∧
    0x45600407#32 &&& untrans ((0x45600407#32).extractLsb' 6 4) ≠ 0 := by decide
theorem witness_WriteMainTlbAttributes : (inUser holding).launch.priv = false ∧ Ready (start 6 0x2F) ∧ TransfersOnEntryWrite (start 6 0x2F) ∧ WfAttr 0x2F ∧
    (0x22F#32).extractLsb' 9 16 ≠ 0 ∧ (0x4000002F#32).extractLsb' 9 16 = 0 ∧ (0x4000002F#32).getLsbD 25 = false ∧
    (0x4000002F#32).extractLsb' 26 6 ≠ 0 ∧ (0x25#32).extractLsb' 9 16 = 0 ∧ (0x25#32).extractLsb' 26 6 = 0 ∧
    (0x25#32).extractLsb' 1 3 ∈ [0b010#3, 0b100#3, 0b101#3] := by decide
theorem witness_ReadDebugControl : (inUser State.reset).launch.priv = false ∧ Ready State.reset ∧ Launchable State.reset := by decide
theorem witness_WriteDebugControl : (inUser State.reset).launch.priv = false ∧ Ready (start 0 0xFF) ∧ WfDbg (start 0 0xFF).x[(0 : Fin 15)] ∧
    (0x100#32).extractLsb' 8 24 ≠ 0 ∧ (0x80#32).extractLsb' 8 24 = 0 ∧ (0x80#32).getLsbD 7 ≠ (0x80#32).getLsbD 6 ∧
    (0x10#32).extractLsb' 8 24 = 0 ∧ (0x10#32).getLsbD 7 = (0x10#32).getLsbD 6 ∧ (0x10#32).getLsbD 5 ≠ (0x10#32).getLsbD 4 := by decide
theorem witness_WritesCompleteExactlyWhenWellFormed : Ready holding ∧ TransfersOnEntryWrite holding ∧ WfCommit holding ∧ WfSel 0x80000007 ∧ ¬ WfSel 0x80000008 := by decide
theorem witness_EachFormWritesOnlyItsOwnState : TransfersOnEntryWrite (start 0 0xF) ∧
    (∃ t, exec (.mrcDmidx 0) (start 0 0xF) = .next t) ∧ (Instr.mrcDmidx 0).isRead = true ∧
    (∃ t, exec (.mcrDmidx 0) (start 0 0xF) = .next t) ∧ (Instr.mcrDmidx 0).isRead = false ∧
    (∃ t, exec (.mcrWmte 1) (holding.setX 1 0x80000002) = .next t) :=
  ⟨rfl, ⟨_, rfl⟩, rfl, ⟨_, rfl⟩, rfl, ⟨_, rfl⟩⟩
theorem witness_NoInstructionWritesAMicroTlb : ∃ t, exec (.mcrWmte 1) (holding.setX 1 0x80000002) = .next t := ⟨_, rfl⟩
theorem witness_EveryCompletedFormContinuesAtPcPlusFour : (∃ t, step (fetching (start 0 3) 0xEEAF0F14) = .next t) :=
  (completes_of_nextIs (p := fun _ => true) (by decide)).imp fun _ h => h.1
theorem witness_LaunchParametersAreConstant : (∃ t, step (fetching (start 0 3) 0xEEAF0F14) = .next t) :=
  (completes_of_nextIs (p := fun _ => true) (by decide)).imp fun _ h => h.1
theorem witness_DebugControlPairsNeverSplit : (DebugPaired (fetching (start 0 3) 0xEEAF0F14) ∧ (start 0 0x80).x[(0 : Fin 15)].getLsbD 7 ≠ (start 0 0x80).x[(0 : Fin 15)].getLsbD 6) ∧ (∃ t, step (fetching (start 0 3) 0xEEAF0F14) = .next t) :=
  ⟨by decide, (completes_of_nextIs (p := fun _ => true) (by decide)).imp fun _ h => h.1⟩
theorem witness_EveryStepKeepsTheInvariant : Inv (fetching (start 0 3) 0xEEAF0F14) ∧ (∃ t, step (fetching (start 0 3) 0xEEAF0F14) = .next t) :=
  ⟨by decide, (completes_of_nextIs (p := fun _ => true) (by decide)).imp fun _ h => h.1⟩
theorem witness_ResetAndLaunchStatesMeetTheInvariants : Launchable (start 0 3) := by decide
theorem witness_DataMicroTlbIsFrozenWhileDulIsSet : ((fetching ((micro.setTlbdbg 0xFF).setX 0 3) 0xEEAF0F14).tlbdbg.getLsbD 0 = true ∧ (fetching ((micro.setTlbdbg 0xFF).setX 0 3) 0xEEAF0F14).dmidx.toNat = (3 : Fin 11).val) ∧
    (∃ t, step (fetching ((micro.setTlbdbg 0xFF).setX 0 3) 0xEEAF0F14) = .next t) ∧
    ∃ t u, exec (.mrcDmpa (rdOf 2)) (micro.setTlbdbg 0x01) = .next t ∧ exec (.mrcDmpa (rdOf 3)) (envGap t) = .next u :=
  ⟨by decide, (completes_of_nextIs (p := fun _ => true) (by decide)).imp fun _ h => h.1, _, _, rfl, rfl⟩
theorem witness_InstructionMicroTlbIsFrozenWhileIulIsSet : (fetching ((micro.setTlbdbg 0xFF).setX 0 3) 0xEEAF0F14).tlbdbg.getLsbD 1 = true ∧ (∃ t, step (fetching ((micro.setTlbdbg 0xFF).setX 0 3) 0xEEAF0F14) = .next t) :=
  ⟨by decide, (completes_of_nextIs (p := fun _ => true) (by decide)).imp fun _ h => h.1⟩
/-- A commit to `MTLB_LK[2]` with main TLB loads disabled. -/
def committing : State := fetching ((holding.setTlbdbg 0x30).setX 1 0x80000002) 0xEEAF1F94
theorem witness_OnlyWmteChangesAFrozenMainTlb : (committing.tlbdbg.getLsbD 5 = true ∧ committing.tlbdbg.getLsbD 4 = true) ∧
    TransfersOnEntryWrite committing ∧
    ∃ t, step committing = .next t ∧ t.tlbs.mainEntry (.lockable 2) ≠ committing.tlbs.mainEntry (.lockable 2) := by
  refine ⟨by decide, rfl, ?_⟩
  have hf : fetchInstr committing = .ok (.mcrWmte 1) := by decide
  have hs : step committing = exec (.mcrWmte 1) (envGap committing) := by simp [step, hf]
  refine ⟨_, hs.trans rfl, ?_⟩
  exact fun h => absurd (((Tlbs.mainEntry_setMain _ (.lockable 2) (.lockable 2) ⟨0x12300200, 0x45600007, 0x2F⟩).symm.trans h)) (by decide)
theorem witness_EnvironmentRewritesOnlyEnabledTlbs : (0x30#8).getLsbD 0 = false ∧ (0x30#8).getLsbD 1 = false ∧ (0x0F#8).getLsbD 4 = false ∧ ¬ ((0x30#8).getLsbD 4 = false ∨ (0x30#8).getLsbD 5 = false) ∧
    TlbSlot.data 0 ≠ TlbSlot.data 10 := by decide
theorem witness_MatchBitsGateNothing : 0xCC#8 &&& 0b00110011 = State.reset.tlbdbg &&& 0b00110011 ∧ (Instr.mrcDmva 0).register ≠ .tlbdbg := by decide
theorem witness_AcceptedDebugControlValues : Ready (start 0 0xCF) ∧ WfDbg (start 0 0xCF).x[(0 : Fin 15)] ∧ ¬ WfDbg (start 0 0x80).x[(0 : Fin 15)] := by decide
theorem witness_LegalSelectorsAreTheSeventyTwo : Ready (loaded.setX 0 0x3F) ∧ (0x3F#32).toNat = 32 * (1 : Fin 2).val + (31 : Fin 32).val ∧ (0#32).toNat = 32 * (0 : Fin 2).val + (0 : Fin 32).val ∧
    (0x80000000#32).toNat = 0x80000000 + (0 : Fin 8).val ∧ (0x80000007#32).toNat = 0x80000000 + (7 : Fin 8).val := by decide
theorem witness_UntranslatedBitsLieBelowTheRegionSize : regionSize? 0b1110 = some .page4K ∧ regionSize? 0b0101 = none := by decide
theorem witness_PhysicalBaseIsTheRegionBoundary : regionSize? (szField 0x80001383) = some .page4K := by decide
theorem witness_CommittedEntryReadsBack : TransfersOnEntryWrite committing ∧ committing.launch.priv = true ∧ committing.pc.toNat + 8 ≤ 0xFFFFFFFC ∧
    committing.tlbdbg.getLsbD 5 = true ∧ committing.tlbdbg.getLsbD 4 = true ∧ WfSel committing.x[(1 : Fin 15)] ∧ WfCommit committing := by decide
theorem witness_FrozenViewsShowOneEntry : (micro.setTlbdbg 1).tlbdbg.getLsbD 0 = true ∧ (micro.setTlbdbg 1).dmidx.toNat = (3 : Fin 11).val ∧ (micro.setTlbdbg 1).launch.priv = true ∧
    (micro.setTlbdbg 1).pc.toNat + 12 ≤ 0xFFFFFFFC ∧ (2 : Fin 15) ≠ 3 ∧ (2 : Fin 15) ≠ 4 ∧ (3 : Fin 15) ≠ 4 := by decide
theorem witness_WindowSelectorsLatch : Ready (windowed (start 0 0x80000007)) ∧ TransfersByWindow (windowed (start 0 0x80000007)) ∧
    WfSel (windowed (start 0 0x80000007)).x[(0 : Fin 15)] := by decide
theorem witness_WindowReadsShowTheSelectedEntry : Ready (windowed loaded) ∧ TransfersByWindow (windowed loaded) := by decide
theorem witness_WindowWritesGoToTheSelectedEntry : Ready (windowed (start 5 0x45600007)) ∧ TransfersByWindow (windowed (start 5 0x45600007)) ∧ WfPa 0x45600007 ∧ WfAttr 0x2F ∧
    ¬ WfPa 0x4560000F ∧ ¬ WfAttr 0x22F := by decide
theorem witness_IndexOverTenAccessesNoEntry : Ready (start 0 0xB) ∧ (start 0 0xB).x[(0 : Fin 15)] = (11#4).setWidth 32 ∧ 10 < (11#4).toNat ∧
    10 < (micro.setDmidx 11).dmidx.toNat ∧ 10 < (micro.setImidx 15).imidx.toNat ∧ Ready (micro.setDmidx 11) ∧ Ready (micro.setImidx 15) := by decide
theorem witness_DataAndInstructionSidesAreSeparate : (Instr.mrcDmva 0).register ∈ [Cp15Reg.dmidx, .dmva, .dmpa, .dmattr] ∧
    (Instr.mcrImidx 0).register ∈ [Cp15Reg.imidx, .imva, .impa, .imattr] := by decide

end Sys2Proof.Tests
end

/-! What a completed form can do, said once for all 28 forms; and O38, that none of it reaches a MicroTLB. -/

section
namespace Sys2Proof.Machine

/-! The three kinds of form: always Undefined, an allowed read, an allowed write. -/

/-- The check of an allowed write on the word of its core register (rule R49); `none` for every other form. -/
def writeRefusal (s : State) (r : Fin 15) : Instr → Option Refusal
  | .mcrDmidx _ => indexRefusal .sbzDmidx s.x[r]
  | .mcrImidx _ => indexRefusal .sbzImidx s.x[r]
  | .mcrRmte _ => selectorRefusal .sbzRmte .sbzRmteLk s.x[r]
  | .mcrWmte _ => (selectorRefusal .sbzWmte .sbzWmteLk s.x[r]).or (selectForWriteRefusal s)
  | .mcrMtpa _ => paRefusal s.x[r]
  | .mcrMtattr _ => attrRefusal s.x[r]
  | .mcrTlbdbg _ => debugRefusal s.x[r]
  | _ => none

/-- The state an accepted write leaves before the pc moves on; `s` itself for every form that is no allowed write. -/
def writtenState (s : State) (r : Fin 15) : Instr → State
  | .mcrDmidx _ => s.setDmidx (s.x[r].extractLsb' 0 4)
  | .mcrImidx _ => s.setImidx (s.x[r].extractLsb' 0 4)
  | .mcrRmte _ => selectForRead s (selectedSlot s.x[r])
  | .mcrWmte _ => selectForWrite s (selectedSlot s.x[r])
  | .mcrMtva _ => writeMtva s s.x[r]
  | .mcrMtpa _ => writeMtpa s s.x[r]
  | .mcrMtattr _ => writeMtattr s s.x[r]
  | .mcrTlbdbg _ => s.setTlbdbg (s.x[r].extractLsb' 0 8)
  | _ => s

/-- A form whose direction its register never allows is the Undefined form (rule R90). -/
theorem exec_of_alwaysUndefined {i : Instr} (s : State) (hu : i.alwaysUndefined = true) : exec i s = undefinedForm i s := by
  cases i
  case mrcRmte rd => exact exec_mrcRmte rd s
  case mrcWmte rd => exact exec_mrcWmte rd s
  case mcrDmva rd => exact exec_mcrDmva rd s
  case mcrImva rd => exact exec_mcrImva rd s
  case mcrDmpa rd => exact exec_mcrDmpa rd s
  case mcrImpa rd => exact exec_mcrImpa rd s
  case mcrDmattr rd => exact exec_mcrDmattr rd s
  case mcrImattr rd => exact exec_mcrImattr rd s
  all_goals cases hu

/-- An allowed read is the prologue around one completed read. -/
theorem exec_of_read {i : Instr} (s : State) (hu : i.alwaysUndefined = false) (hr : i.isRead = true) :
    ∃ v, exec i s = prologue i s fun r => completeRead r v s := by
  obtain ⟨_, shape, he⟩ := exec_shape i s
  cases shape with
  | read v _ => exact ⟨v, he⟩
  | write _ _ h => simp [hr] at h
  | undefined h => simp [hu] at h

/-- An allowed write is the prologue around its check and its written state. -/
theorem exec_of_write {i : Instr} (s : State) (hu : i.alwaysUndefined = false) (hr : i.isRead = false) :
    exec i s = prologue i s fun r => completeWrite (writeRefusal s r i) (writtenState s r i) := by
  cases i
  case mcrDmidx rd => exact exec_mcrDmidx rd s
  case mcrImidx rd => exact exec_mcrImidx rd s
  case mcrRmte rd => exact exec_mcrRmte rd s
  case mcrWmte rd => exact exec_mcrWmte rd s
  case mcrMtva rd => exact exec_mcrMtva rd s
  case mcrMtpa rd => exact exec_mcrMtpa rd s
  case mcrMtattr rd => exact exec_mcrMtattr rd s
  case mcrTlbdbg rd => exact exec_mcrTlbdbg rd s
  case mcrDmva | mcrImva | mcrDmpa | mcrImpa | mcrDmattr | mcrImattr => cases hu
  all_goals cases hr

/-! What a write leaves of the pc and of the TLBs. -/

/-- One TLB state is another one, or that one with one main TLB entry replaced. -/
def MainEntryReplaced (t u : Tlbs) : Prop := u = t ∨ ∃ slot e, u = t.setMain slot e

theorem MainEntryReplaced.data {t u : Tlbs} (h : MainEntryReplaced t u) : u.data = t.data := by
  obtain rfl | ⟨slot, e, rfl⟩ := h
  · rfl
  · exact Tlbs.setMain_data t slot e

theorem MainEntryReplaced.instruction {t u : Tlbs} (h : MainEntryReplaced t u) : u.instruction = t.instruction := by
  obtain rfl | ⟨slot, e, rfl⟩ := h
  · rfl
  · exact Tlbs.setMain_instruction t slot e

/-- A window write replaces the entry `WMTE` selects. -/
theorem writeWindow_tlbs (s : State) (f : TlbEntry → TlbEntry) : MainEntryReplaced s.tlbs (writeWindow s f).tlbs :=
  .inr ⟨s.wmteSel, f (s.tlbs.mainEntry s.wmteSel), rfl⟩

/-- A write leaves the pc where it is, for `advance` to move. -/
@[simp] theorem writtenState_pc (s : State) (r : Fin 15) (i : Instr) : (writtenState s r i).pc = s.pc := by
  cases i
  case mcrRmte | mcrWmte | mcrMtva | mcrMtpa | mcrMtattr =>
    cases h : s.launch.transfer <;>
      simp [writtenState, selectForRead, selectForWrite, writeMtva, writeMtpa, writeMtattr, writeWindow, h]
  all_goals rfl

/-- Under either transfer model a write reaches the TLBs through `setMain` alone: `WMTE` under `onEntryWrite`, the three
window writes under `window`. -/
theorem writtenState_tlbs (s : State) (r : Fin 15) (i : Instr) : MainEntryReplaced s.tlbs (writtenState s r i).tlbs := by
  cases ht : s.launch.transfer <;> cases i
  case onEntryWrite.mcrWmte =>
    exact .inr ⟨selectedSlot s.x[r], ⟨s.mtva, s.mtpa, s.mtattr⟩, by simp [writtenState, selectForWrite, ht]⟩
  case window.mcrMtva | window.mcrMtpa | window.mcrMtattr =>
    simp only [writtenState, writeMtva, writeMtpa, writeMtattr, ht]
    exact writeWindow_tlbs s _
  all_goals
    exact .inl (by simp [writtenState, selectForRead, selectForWrite, writeMtva, writeMtpa, writeMtattr, ht])

/-! The inversion of `exec`. -/

/-- A form answers a next state only in a privileged mode and with room, and then it is an allowed read, which writes its
register with the merged word and counts the draw, or an allowed write whose check passed. -/
theorem exec_eq_next_cases {i : Instr} {s t : State} (h : exec i s = .next t) :
    ∃ hrd : i.rd.val < 15, Ready s ∧ i.alwaysUndefined = false ∧
      ((i.isRead = true ∧ ∃ v, t =
          (((s.setX ⟨i.rd.val, hrd⟩ (merge v (Config.freeWord s.draws))).setDraws (s.draws + 1)).setPc (s.pc + 4))) ∨
        (i.isRead = false ∧ writeRefusal s ⟨i.rd.val, hrd⟩ i = none ∧
          t = (writtenState s ⟨i.rd.val, hrd⟩ i).setPc (s.pc + 4))) := by
  cases hu : i.alwaysUndefined
  case true => exact absurd (exec_of_alwaysUndefined s hu ▸ h) undefinedForm_ne_next
  case false =>
    cases hr : i.isRead
    case true =>
      obtain ⟨v, he⟩ := exec_of_read s hu hr
      obtain ⟨hrd, hp, hc⟩ := prologue_eq_next.mp (he ▸ h)
      obtain ⟨room, ht⟩ := completeRead_eq_next.mp hc
      exact ⟨hrd, ⟨hp, room⟩, rfl, .inl ⟨rfl, v, ht⟩⟩
    case false =>
      obtain ⟨hrd, hp, hc⟩ := prologue_eq_next.mp (exec_of_write s hu hr ▸ h)
      obtain ⟨passed, room, ht⟩ := completeWrite_eq_next.mp hc
      rw [writtenState_pc] at room ht
      exact ⟨hrd, ⟨hp, room⟩, rfl, .inr ⟨rfl, passed, ht⟩⟩

/-- So all a completed form can do to the TLBs is to replace one main TLB entry. -/
theorem exec_tlbs {i : Instr} {s t : State} (h : exec i s = .next t) : MainEntryReplaced s.tlbs t.tlbs := by
  obtain ⟨hrd, -, -, ⟨-, v, rfl⟩ | ⟨-, -, rfl⟩⟩ := exec_eq_next_cases h
  · exact .inl rfl
  · exact writtenState_tlbs s ⟨i.rd.val, hrd⟩ i

/-- Settles O38: a completed form can do no more to the TLBs than replace one main TLB entry. -/
theorem noInstructionWritesAMicroTlb : Obligations.NoInstructionWritesAMicroTlb := by
  intro i s t h
  exact ⟨(exec_tlbs h).data, (exec_tlbs h).instruction⟩

end Sys2Proof.Machine
end

/-! The encoding: a word is its row's match word and its field `Rd`, and from that the decoder and the encoder are inverse
(O1, O2, O3), the word formula (O4), and the eight always-Undefined forms in both directions (O13). -/

section
namespace Sys2Proof

open Machine

/-! The two parts of a word: the bits under the row mask and the field `Rd`. -/

theorem getElem_rowMask : ∀ (k : Nat) (hk : k < 32), rowMask[k] = decide (k < 12 ∨ 16 ≤ k) := by decide

/-- The row mask and the field `Rd` share no bit and leave none out: together they fix a word. -/
theorem word_eq_of_row_of_rd {v w : Word} (hrow : v &&& rowMask = w &&& rowMask) (hrd : rdField v = rdField w) : v = w := by
  ext k hk
  by_cases h : k < 12 ∨ 16 ≤ k
  · have hbit := congrArg (fun u => u[k]) hrow
    simpa [getElem_rowMask, h] using hbit
  · have hbit := congrArg (fun u => u.getLsbD (k - 12)) (BitVec.toFin_inj.mp hrd)
    have hlt : k - 12 < 4 := by omega
    have hk12 : 12 + (k - 12) = k := by omega
    simpa [hlt, hk12, hk] using hbit

theorem rdField_eq_fifteen {w : Word} : rdField w = 15 ↔ w.extractLsb' 12 4 = 15 :=
  BitVec.toFin_inj (y := 15#4)

/-! The word of a form as the formula of its fields (rule R81). -/

/-- Every one of the registers stands at `CRn` = 15. -/
theorem Cp15Reg.location_crn (r : Cp15Reg) : r.location.crn = 15 := by
  cases r <;> rfl

theorem setWidth_directionBit (i : Instr) : (directionBit i).setWidth 32 = if i.isRead then 1#32 else 0#32 := by
  unfold directionBit
  split <;> rfl

theorem setWidth_ofFin (rd : Fin 16) : (BitVec.ofFin (w := 4) rd).setWidth 32 = BitVec.ofNat 32 rd.val :=
  BitVec.eq_of_toNat_eq (by simp)

/-- The fields of the format, set side by side, are the `or` of the fields shifted to their places. -/
theorem encode_eq_fields (i : Instr) :
    encode i = (0xE#32 <<< 28) ||| (0xE#32 <<< 24) ||| (i.register.location.opcode1.setWidth 32 <<< 21) |||
      ((if i.isRead then 1#32 else 0#32) <<< 20) ||| (15#32 <<< 16) ||| (BitVec.ofNat 32 i.rd.val <<< 12) |||
      (15#32 <<< 8) ||| (i.register.location.opcode2.setWidth 32 <<< 5) ||| (1#32 <<< 4) |||
      i.register.location.crm.setWidth 32 := by
  rw [← BitVec.setWidth_eq (x := encode i), ← setWidth_directionBit]
  unfold encode
  simp only [BitVec.setWidth_append_eq_shiftLeft_setWidth_or, BitVec.shiftLeft_or_distrib, ← BitVec.shiftLeft_add,
    Cp15Reg.location_crn, setWidth_ofFin]
  simp only [Nat.reduceAdd]
  rfl

/-- The constant bits of the formula brought together, its parts kept in order. -/
theorem or_gather (c₁ c₂ op l c₃ rd c₄ x c₅ y : Word) :
    c₁ ||| c₂ ||| op ||| l ||| c₃ ||| rd ||| c₄ ||| x ||| c₅ ||| y =
      ((c₁ ||| c₂ ||| c₃ ||| c₄ ||| c₅) ||| op ||| l) ||| rd ||| (x ||| y) := by
  ac_rfl

/-- The formula with its constant bits gathered: those of the opcode and the direction, then `Rd`, then what names the
register. -/
theorem encode_eq_base_or_rd_or_tail (i : Instr) :
    encode i = (0xEE0F0F10#32 ||| (i.register.location.opcode1.setWidth 32 <<< 21) |||
        ((if i.isRead then 1#32 else 0#32) <<< 20)) ||| (BitVec.ofNat 32 i.rd.val <<< 12) |||
      ((i.register.location.opcode2.setWidth 32 <<< 5) ||| i.register.location.crm.setWidth 32) := by
  rw [encode_eq_fields, or_gather]
  rfl

/-- Settles O4: the formula of the fields, and its four short forms by opcode and direction. -/
theorem encodingFollowsTheWordFormula : Obligations.EncodingFollowsTheWordFormula := by
  intro i
  refine ⟨encode_eq_fields i, Cp15Reg.location_crn _, ?_, ?_, ?_, ?_⟩
  all_goals
    intro hread hopcode
    rw [encode_eq_base_or_rd_or_tail, hread, hopcode]
    rfl

/-! The rows of the opcode map (rule R85). -/

/-- Every form stands in the map. -/
theorem exists_row (i : Instr) : ∃ row ∈ opcodeMap, row.2 i.rd = i := by
  have hmem : i ∈ opcodeMap.map (fun row => row.2 i.rd) := by
    cases i <;> simp only [opcodeMap, Instr.rd, List.map_cons, List.mem_cons, true_or, or_true]
  exact List.mem_map.mp hmem

/-- No two rows have the same match word. -/
theorem matchWords_nodup : (opcodeMap.map Prod.fst).Nodup := by decide

theorem rd_of_row : ∀ row ∈ opcodeMap, ∀ rd, (row.2 rd).rd = rd := by decide

/-- The word of a row's form is the row's match word with `Rd` put in. -/
theorem encode_of_row : ∀ row ∈ opcodeMap, ∀ rd, encode (row.2 rd) = row.1 ||| (BitVec.ofNat 32 rd.val <<< 12) := by decide

/-- So under the mask, which clears `Rd`, only the match word is left. -/
theorem encode_of_row_and_rowMask {row : Word × (Fin 16 → Instr)} (hrow : row ∈ opcodeMap) (rd : Fin 16) :
    encode (row.2 rd) &&& rowMask = row.1 := by
  have hmatch : ∀ row ∈ opcodeMap, row.1 &&& rowMask = row.1 := by decide
  have hrd : ∀ rd : Fin 16, (BitVec.ofNat 32 rd.val <<< 12) &&& rowMask = 0#32 := by decide
  rw [encode_of_row row hrow, BitVec.and_or_distrib_right, hmatch row hrow, hrd, BitVec.or_zero]

theorem rdField_encode (i : Instr) : rdField (encode i) = i.rd := by
  have hfields : ∀ row ∈ opcodeMap, ∀ rd : Fin 16, rdField (row.1 ||| (BitVec.ofNat 32 rd.val <<< 12)) = rd := by decide
  obtain ⟨row, hrow, hi⟩ := exists_row i
  rw [← hi, encode_of_row row hrow, hfields row hrow, hi]

/-! The decoder. -/

/-- Match words differ, so a word agrees with one row only and the search finds that row. -/
theorem find_row {w : Word} {row : Word × (Fin 16 → Instr)} (hrow : row ∈ opcodeMap) (hw : w &&& rowMask = row.1) :
    opcodeMap.find? (fun row => w &&& rowMask == row.1) = some row := by
  cases hfind : opcodeMap.find? (fun row => w &&& rowMask == row.1) with
  | none => exact absurd (beq_iff_eq.mpr hw) (List.find?_eq_none.mp hfind row hrow)
  | some found =>
    have hfound : w &&& rowMask = found.1 := by simpa using List.find?_some hfind
    rw [List.inj_on_of_nodup_map matchWords_nodup (List.mem_of_find?_eq_some hfind) hrow (hfound.symm.trans hw)]

theorem decode_of_row {w : Word} {row : Word × (Fin 16 → Instr)} (hrow : row ∈ opcodeMap) (hw : w &&& rowMask = row.1) :
    decode w = if rdField w = 15 then .error .rdIsPc else .ok (row.2 (rdField w)) := by
  simp only [decode, find_row hrow hw]

/-- A word decodes exactly when it agrees with a row and its `Rd` is not 15, and then to that row's form. -/
theorem decode_eq_ok_iff {w : Word} {i : Instr} :
    decode w = .ok i ↔ ∃ row ∈ opcodeMap, w &&& rowMask = row.1 ∧ rdField w ≠ 15 ∧ row.2 (rdField w) = i := by
  constructor
  · intro h
    cases hfind : opcodeMap.find? (fun row => w &&& rowMask == row.1) with
    | none =>
      simp only [decode, hfind] at h
      split at h <;> cases h
    | some row =>
      have hrow := List.mem_of_find?_eq_some hfind
      have hw : w &&& rowMask = row.1 := by simpa using List.find?_some hfind
      rw [decode_of_row hrow hw] at h
      split at h
      · cases h
      · exact ⟨row, hrow, hw, ‹_›, Except.ok.inj h⟩
  · rintro ⟨row, hrow, hw, hrd, rfl⟩
    rw [decode_of_row hrow hw, if_neg hrd]

theorem wellFormed_iff {i : Instr} : i.wellFormed = true ↔ i.rd ≠ 15 := by
  simp only [Instr.wellFormed, decide_eq_true_eq, ne_eq, Fin.ext_iff]
  omega

/-- Settles O1: the word of a form agrees with the form's row, and its `Rd` reads back. -/
theorem encodedInstructionDecodesToItself : Obligations.EncodedInstructionDecodesToItself := by
  intro i hwf
  obtain ⟨row, hrow, hi⟩ := exists_row i
  have hmatch : encode i &&& rowMask = row.1 := hi ▸ encode_of_row_and_rowMask hrow i.rd
  refine decode_eq_ok_iff.mpr ⟨row, hrow, hmatch, ?_, ?_⟩ <;> rw [rdField_encode]
  · exact wellFormed_iff.mp hwf
  · exact hi

/-- Settles O2: the decoded form has the word's row and the word's `Rd`, which leaves no bit of the word out. -/
theorem decodedWordEncodesToItself : Obligations.DecodedWordEncodesToItself := by
  intro w i h
  obtain ⟨row, hrow, hw, hrd, rfl⟩ := decode_eq_ok_iff.mp h
  have hrow_rd := rd_of_row row hrow (rdField w)
  refine ⟨wellFormed_iff.mpr (hrow_rd.trans_ne hrd), word_eq_of_row_of_rd ?_ ?_⟩
  · rw [encode_of_row_and_rowMask hrow, hw]
  · rw [rdField_encode, hrow_rd]

/-- Settles O3: the table is the opcode map, and a word that decodes agrees with one of its rows. -/
theorem opcodeMapSelectsItsRows : Obligations.OpcodeMapSelectsItsRows := by
  rintro w table rfl
  change (∀ row ∈ opcodeMap, w &&& rowMask = row.1 → _) ∧ ((∀ row ∈ opcodeMap, w &&& rowMask ≠ row.1) → _)
  refine ⟨fun row hrow hw => ⟨fun hrd => ?_, fun hrd => ?_⟩, fun hnone i h => ?_⟩
  · rw [decode_of_row hrow hw, if_neg (rdField_eq_fifteen.not.mpr hrd)]
    rfl
  · rw [decode_of_row hrow hw, if_pos (rdField_eq_fifteen.mpr hrd)]
  · obtain ⟨row, hrow, hw, -, -⟩ := decode_eq_ok_iff.mp h
    exact hnone row hrow hw

/-! The always-Undefined rows. -/

/-- A row whose direction its register never allows: for each `Rd` but 15 its word decodes, and its form takes the
Undefined exception with that word. -/
theorem alwaysUndefined_row {word : Word} {form : Fin 16 → Instr} (hrow : (word, form) ∈ opcodeMap) (r : Fin 15) (s : State)
    (hu : (form (rdOf r)).alwaysUndefined = true) :
    decode (word ||| (BitVec.ofNat 32 r.val <<< 12)) = .ok (form (rdOf r)) ∧
      exec (form (rdOf r)) s = .fault (.undefined (word ||| (BitVec.ofNat 32 r.val <<< 12)) s.pc) := by
  have hword : encode (form (rdOf r)) = word ||| (BitVec.ofNat 32 r.val <<< 12) := encode_of_row _ hrow (rdOf r)
  have hrd : (form (rdOf r)).rd.val < 15 := by
    rw [rd_of_row _ hrow]
    exact r.isLt
  rw [← hword, exec_of_alwaysUndefined s hu]
  exact ⟨encodedInstructionDecodesToItself _ (decide_eq_true hrd), undefinedForm_eq hrd⟩

/-- Settles O13, one row of the opcode map after the other. -/
theorem alwaysUndefinedFormsFaultInEveryMode : Obligations.AlwaysUndefinedFormsFaultInEveryMode := by
  intro r s
  obtain ⟨dRmte, xRmte⟩ := alwaysUndefined_row (word := 0xEEBF0F54) (form := .mrcRmte) (by simp [opcodeMap]) r s rfl
  obtain ⟨dWmte, xWmte⟩ := alwaysUndefined_row (word := 0xEEBF0F94) (form := .mrcWmte) (by simp [opcodeMap]) r s rfl
  obtain ⟨dDmva, xDmva⟩ := alwaysUndefined_row (word := 0xEEAF0F15) (form := .mcrDmva) (by simp [opcodeMap]) r s rfl
  obtain ⟨dImva, xImva⟩ := alwaysUndefined_row (word := 0xEEAF0F35) (form := .mcrImva) (by simp [opcodeMap]) r s rfl
  obtain ⟨dDmpa, xDmpa⟩ := alwaysUndefined_row (word := 0xEEAF0F16) (form := .mcrDmpa) (by simp [opcodeMap]) r s rfl
  obtain ⟨dImpa, xImpa⟩ := alwaysUndefined_row (word := 0xEEAF0F36) (form := .mcrImpa) (by simp [opcodeMap]) r s rfl
  obtain ⟨dDmattr, xDmattr⟩ := alwaysUndefined_row (word := 0xEEAF0F17) (form := .mcrDmattr) (by simp [opcodeMap]) r s rfl
  obtain ⟨dImattr, xImattr⟩ := alwaysUndefined_row (word := 0xEEAF0F37) (form := .mcrImattr) (by simp [opcodeMap]) r s rfl
  exact ⟨dRmte, xRmte, dWmte, xWmte, dDmva, xDmva, dImva, xImva, dDmpa, xDmpa, dImpa, xImpa, dDmattr, xDmattr, dImattr, xImattr⟩

end Sys2Proof
end

/-! The MicroTLB index registers: reading and writing them (O16 to O19), and the forms of one MicroTLB side neither seeing
nor changing the other side (O60). -/

section
namespace Sys2Proof.Machine

/-! What a row of the opcode map fixes of its form, and what the shared operations answer in a `Ready` state. -/

/-- In User mode every well-formed form takes the Undefined exception, whatever its own part is (rule R160). -/
theorem userUndefined_of_rd {i : Instr} (h : i.rd.val < 15) (s : State) : UserUndefined i s := by
  intro hp
  obtain ⟨body, -, he⟩ := exec_shape i s
  rw [he, prologue_user h hp]

/-- The first two parts of a statement about a row: the word of its form for each `Rd` but 15, and the User mode fault. -/
theorem word_and_userUndefined_of_row {word : Word} {form : Fin 16 → Instr} (hrow : (word, form) ∈ opcodeMap) (r : Fin 15)
    (s : State) :
    encode (form (rdOf r)) = word ||| (BitVec.ofNat 32 r.val <<< 12) ∧ UserUndefined (form (rdOf r)) s := by
  refine ⟨encode_of_row _ hrow (rdOf r), userUndefined_of_rd ?_ s⟩
  rw [rd_of_row _ hrow]
  exact r.isLt

/-- In a privileged mode the prologue of a form on core register `r` is the form's body on `r`. -/
theorem prologue_rdOf {i : Instr} {r : Fin 15} {s : State} {body : Fin 15 → Out} (hi : i.rd = rdOf r)
    (hp : s.launch.priv = true) : prologue i s body = body r := by
  have hrd : i.rd.val = r.val := congrArg Fin.val hi
  have hlt : i.rd.val < 15 := hrd ▸ r.isLt
  rw [prologue_privileged hlt hp]
  exact congrArg body (Fin.ext hrd)

/-- With room a read answers any set of words that holds the merged word of every draw. -/
theorem readAnswers_completeRead {r : Fin 15} {v : Readable} {s : State} {allowed : Word → Prop}
    (room : s.pc.toNat + 4 ≤ 0xFFFFFFFC) (hv : ∀ d, allowed (merge v d)) : ReadAnswers s r (completeRead r v s) allowed :=
  ⟨_, _, hv _, completeRead_eq_next.mpr ⟨room, rfl⟩⟩

/-! The word of an index register. -/

/-- An index register reads as 28 bits of the draw above `Index` (rules R25, R48). -/
theorem merge_indexReadable (index : BitVec 4) (d : Word) : merge (indexReadable index) d = d.extractLsb' 4 28 ++ index := by
  have hmask : ∀ k (hk : k < 32), (0xFFFFFFF0#32)[k] = decide (4 ≤ k) := by decide
  refine BitVec.eq_of_getLsbD_eq fun k hk => ?_
  rw [BitVec.getLsbD_append]
  by_cases h : k < 4
  · simp [merge, indexReadable, -BitVec.reduceNot, hmask, hk, h, Nat.not_le.mpr h]
  · have h4 : 4 ≤ k := by omega
    have hk28 : k - 4 < 28 := by omega
    simp [merge, indexReadable, -BitVec.reduceNot, hmask, hk, h, h4, hk28]

/-- A read of an index register answers its `Index` below 28 free bits. -/
theorem readAnswers_indexReadable {r : Fin 15} {s : State} (room : s.pc.toNat + 4 ≤ 0xFFFFFFFC) (index : BitVec 4) :
    ReadAnswers s r (completeRead r (indexReadable index) s) fun v => ∃ d : BitVec 28, v = d ++ index :=
  readAnswers_completeRead room fun d => ⟨_, merge_indexReadable index d⟩

/-- A write of an index register is refused for a non-zero bit above `Index` (decision D9). -/
theorem completeWrite_indexRefusal_of_ne {v : Word} (q : Refusal) (t : State) (h : v.extractLsb' 4 28 ≠ 0) :
    completeWrite (indexRefusal q v) t = .refused q := by
  have hq : indexRefusal q v = some q := if_pos (bne_iff_ne.mpr h)
  rw [hq]
  rfl

/-- With those bits zero and with room it completes. -/
theorem completeWrite_indexRefusal_of_eq {v : Word} (q : Refusal) {t : State} (h : v.extractLsb' 4 28 = 0)
    (room : t.pc.toNat + 4 ≤ 0xFFFFFFFC) : completeWrite (indexRefusal q v) t = .next (t.setPc (t.pc + 4)) :=
  completeWrite_eq_next.mpr ⟨by simp [indexRefusal, firstRefusal, h], room, rfl⟩

/-- Settles O16: a read of the word whose low part is `DMIDX.Index`. -/
theorem readDataMicroTlbIndex : Obligations.ReadDataMicroTlbIndex := by
  intro r s
  obtain ⟨hword, huser⟩ := word_and_userUndefined_of_row (word := 0xEEBF0F14) (form := .mrcDmidx) (by simp [opcodeMap]) r s
  refine ⟨hword, huser, fun ⟨hpriv, room⟩ => ?_⟩
  rw [exec_mrcDmidx, prologue_rdOf rfl hpriv]
  exact readAnswers_indexReadable room s.dmidx

/-- Settles O17, by the one check of an index write. -/
theorem writeDataMicroTlbIndex : Obligations.WriteDataMicroTlbIndex := by
  intro r s
  obtain ⟨hword, huser⟩ := word_and_userUndefined_of_row (word := 0xEEAF0F14) (form := .mcrDmidx) (by simp [opcodeMap]) r s
  refine ⟨hword, huser, fun ⟨hpriv, room⟩ => ?_⟩
  rw [exec_mcrDmidx, prologue_rdOf rfl hpriv]
  exact ⟨completeWrite_indexRefusal_of_ne _ _, fun h => completeWrite_indexRefusal_of_eq _ h room⟩

/-- Settles O18: a read of the word whose low part is `IMIDX.Index`. -/
theorem readInstructionMicroTlbIndex : Obligations.ReadInstructionMicroTlbIndex := by
  intro r s
  obtain ⟨hword, huser⟩ := word_and_userUndefined_of_row (word := 0xEEBF0F34) (form := .mrcImidx) (by simp [opcodeMap]) r s
  refine ⟨hword, huser, fun ⟨hpriv, room⟩ => ?_⟩
  rw [exec_mrcImidx, prologue_rdOf rfl hpriv]
  exact readAnswers_indexReadable room s.imidx

/-- Settles O19, by the one check of an index write. -/
theorem writeInstructionMicroTlbIndex : Obligations.WriteInstructionMicroTlbIndex := by
  intro r s
  obtain ⟨hword, huser⟩ := word_and_userUndefined_of_row (word := 0xEEAF0F34) (form := .mcrImidx) (by simp [opcodeMap]) r s
  refine ⟨hword, huser, fun ⟨hpriv, room⟩ => ?_⟩
  rw [exec_mcrImidx, prologue_rdOf rfl hpriv]
  exact ⟨completeWrite_indexRefusal_of_ne _ _, fun h => completeWrite_indexRefusal_of_eq _ h room⟩

/-! The two sides. A change of the state that leaves alone what the shared operations use commutes with each of them, so a
form commutes with it as soon as the word it reads, or the state it writes, does. -/

/-- A change of the state that the shared operations neither see nor undo. -/
structure KeepsShared (f : State → State) : Prop where
  pc (s : State) : (f s).pc = s.pc
  draws (s : State) : (f s).draws = s.draws
  launch (s : State) : (f s).launch = s.launch
  setX (s : State) (r : Fin 15) (v : Word) : (f s).setX r v = f (s.setX r v)
  setPc (s : State) (v : Word) : (f s).setPc v = f (s.setPc v)
  setDraws (s : State) (n : Nat) : (f s).setDraws n = f (s.setDraws n)

section
variable {f : State → State} (hf : KeepsShared f)
include hf

theorem KeepsShared.advance_comm (s : State) : advance (f s) = mapNext f (advance s) := by
  unfold advance
  rw [hf.pc, hf.setPc]
  split <;> rfl

theorem KeepsShared.takeUndefined_comm (i : Instr) (s : State) : takeUndefined i (f s) = mapNext f (takeUndefined i s) := by
  simp only [takeUndefined, hf.pc, mapNext]

/-- The prologue commutes with the change if the body does. -/
theorem KeepsShared.prologue_comm (i : Instr) (s : State) {body body' : Fin 15 → Out} (hb : ∀ r, body' r = mapNext f (body r)) :
    prologue i (f s) body' = mapNext f (prologue i s body) := by
  unfold prologue
  rw [hf.launch, hf.takeUndefined_comm]
  split
  · split
    · exact hb _
    · rfl
  · rfl

theorem KeepsShared.completeRead_comm (r : Fin 15) (v : Readable) (s : State) :
    completeRead r v (f s) = mapNext f (completeRead r v s) := by
  unfold completeRead
  rw [hf.draws, hf.setX, hf.setDraws, hf.advance_comm]

theorem KeepsShared.completeWrite_comm (c : Option Refusal) (t : State) :
    completeWrite c (f t) = mapNext f (completeWrite c t) := by
  cases c with
  | some q => rfl
  | none => exact hf.advance_comm t

/-- A form that reads the same word before and after the change commutes with it. -/
theorem KeepsShared.prologue_completeRead_comm (i : Instr) (s : State) (v : Readable) :
    prologue i (f s) (fun r => completeRead r v (f s)) =
      mapNext f (prologue i s fun r => completeRead r v s) :=
  hf.prologue_comm i s fun r => hf.completeRead_comm r v s

/-- A write with the same check, whose written state commutes with the change, commutes with it. -/
theorem KeepsShared.prologue_completeWrite_comm (i : Instr) (s : State) (c : Fin 15 → Option Refusal) (t : Fin 15 → State) :
    prologue i (f s) (fun r => completeWrite (c r) (f (t r))) =
      mapNext f (prologue i s fun r => completeWrite (c r) (t r)) :=
  hf.prologue_comm i s fun r => hf.completeWrite_comm (c r) (t r)

theorem KeepsShared.exec_comm_of_alwaysUndefined {i : Instr} (s : State) (hu : i.alwaysUndefined = true) :
    exec i (f s) = mapNext f (exec i s) := by
  rw [exec_of_alwaysUndefined _ hu, exec_of_alwaysUndefined _ hu]
  exact hf.prologue_comm i s fun _ => hf.takeUndefined_comm i s

end

/-- The state with another Instruction MicroTLB and another index into it (decision D6). -/
def setInstructionSide (k : BitVec 4) (entries : Vector TlbEntry 11) (s : State) : State :=
  { s with imidx := k, tlbs := { s.tlbs with instruction := entries } }

/-- The state with another Data MicroTLB and another index into it (decision D6). -/
def setDataSide (k : BitVec 4) (entries : Vector TlbEntry 11) (s : State) : State :=
  { s with dmidx := k, tlbs := { s.tlbs with data := entries } }

theorem keepsShared_setInstructionSide (k : BitVec 4) (entries : Vector TlbEntry 11) :
    KeepsShared (setInstructionSide k entries) :=
  ⟨fun _ => rfl, fun _ => rfl, fun _ => rfl, fun _ _ _ => rfl, fun _ _ => rfl, fun _ _ => rfl⟩

theorem keepsShared_setDataSide (k : BitVec 4) (entries : Vector TlbEntry 11) : KeepsShared (setDataSide k entries) :=
  ⟨fun _ => rfl, fun _ => rfl, fun _ => rfl, fun _ _ _ => rfl, fun _ _ => rfl, fun _ _ => rfl⟩

/-- The data-side forms commute with any change of the instruction side: a read's word and the written index come from
fields that change leaves alone. -/
theorem exec_setInstructionSide {i : Instr} (s : State) (k : BitVec 4) (entries : Vector TlbEntry 11)
    (hi : i.register ∈ [Cp15Reg.dmidx, .dmva, .dmpa, .dmattr]) :
    exec i (setInstructionSide k entries s) = mapNext (setInstructionSide k entries) (exec i s) := by
  have hf := keepsShared_setInstructionSide k entries
  cases i
  case mrcDmidx | mrcDmva | mrcDmpa | mrcDmattr => exact hf.prologue_completeRead_comm _ s _
  case mcrDmidx =>
    exact hf.prologue_completeWrite_comm _ s (fun r => indexRefusal .sbzDmidx s.x[r]) (fun r => s.setDmidx (s.x[r].extractLsb' 0 4))
  case mcrDmva | mcrDmpa | mcrDmattr => exact hf.exec_comm_of_alwaysUndefined s rfl
  all_goals simp [Instr.register] at hi

/-- The instruction-side forms commute with any change of the data side. -/
theorem exec_setDataSide {i : Instr} (s : State) (k : BitVec 4) (entries : Vector TlbEntry 11)
    (hi : i.register ∈ [Cp15Reg.imidx, .imva, .impa, .imattr]) :
    exec i (setDataSide k entries s) = mapNext (setDataSide k entries) (exec i s) := by
  have hf := keepsShared_setDataSide k entries
  cases i
  case mrcImidx | mrcImva | mrcImpa | mrcImattr => exact hf.prologue_completeRead_comm _ s _
  case mcrImidx =>
    exact hf.prologue_completeWrite_comm _ s (fun r => indexRefusal .sbzImidx s.x[r]) (fun r => s.setImidx (s.x[r].extractLsb' 0 4))
  case mcrImva | mcrImpa | mcrImattr => exact hf.exec_comm_of_alwaysUndefined s rfl
  all_goals simp [Instr.register] at hi

/-- Settles O60: each side's forms commute with any change of the other side. -/
theorem dataAndInstructionSidesAreSeparate : Obligations.DataAndInstructionSidesAreSeparate :=
  fun _ s k entries => ⟨exec_setInstructionSide s k entries, exec_setDataSide s k entries⟩

end Sys2Proof.Machine
end

/-! The main TLB entry registers: loading the holding registers (O20), committing them (O21), and what is committed read back
(O54); with the write checks of rule R49 as the predicates that the rule gives. -/

section
namespace Sys2Proof.Machine

/-! An allowed write in a privileged mode: its check refuses, or it leaves its written state at the next pc. -/

theorem exec_write_refused {i : Instr} {r : Fin 15} {s : State} {q : Refusal} (hrd : i.rd = rdOf r)
    (hu : i.alwaysUndefined = false) (hr : i.isRead = false) (hp : s.launch.priv = true)
    (hq : writeRefusal s r i = some q) : exec i s = .refused q := by
  rw [exec_of_write s hu hr, prologue_rdOf hrd hp, hq]
  rfl

theorem exec_write_completes {i : Instr} {r : Fin 15} {s : State} (hrd : i.rd = rdOf r)
    (hu : i.alwaysUndefined = false) (hr : i.isRead = false) (ready : Ready s) (passed : writeRefusal s r i = none) :
    exec i s = .next ((writtenState s r i).setPc (s.pc + 4)) := by
  obtain ⟨hp, room⟩ := ready
  rw [exec_of_write s hu hr, prologue_rdOf hrd hp, completeWrite_eq_next, writtenState_pc]
  exact ⟨passed, room, rfl⟩

/-! The write checks as predicates. -/

/-- `SZ_MAIN` has the four sizes of rule R33. -/
theorem szMain_iff : ∀ sz : BitVec 4, szMain sz = true ↔ sz ∈ [0b1110#4, 0b1000#4, 0b0000#4, 0b0001#4] := by decide

/-- `RGN_LEGAL` has the five region types of rule R42. -/
theorem rgnLegal_iff : ∀ rgn : BitVec 3, rgnLegal rgn = true ↔ rgn ∈ [0b000#3, 0b001#3, 0b011#3, 0b110#3, 0b111#3] := by
  decide

theorem paRefusal_eq_none {v : Word} : paRefusal v = none ↔ WfPa v := by
  rw [WfPa, ← szMain_iff]
  simp [paRefusal, firstRefusal_eq_none, szField, apField]

theorem attrRefusal_eq_none {v : Word} : attrRefusal v = none ↔ WfAttr v := by
  rw [WfAttr, ← rgnLegal_iff]
  simp [attrRefusal, firstRefusal_eq_none, -List.mem_cons, List.forall_mem_cons, spvBit, rgnField, or_iff_not_imp_left]

/-- Bits [30:6] are checked first (rule R27). -/
theorem selectorRefusal_of_sbz {sbz sbzLockable : Refusal} {v : Word} (h : v.extractLsb' 6 25 ≠ 0) :
    selectorRefusal sbz sbzLockable v = some sbz :=
  if_pos (bne_iff_ne.mpr h)

/-- Then, with L = 1, bits [5:3]. -/
theorem selectorRefusal_of_lockable {sbz sbzLockable : Refusal} {v : Word} (hsbz : v.extractLsb' 6 25 = 0)
    (hl : v.getLsbD 31 = true) (h : v.extractLsb' 3 3 ≠ 0) : selectorRefusal sbz sbzLockable v = some sbzLockable := by
  rw [selectorRefusal, firstRefusal, if_neg (by rw [hsbz]; decide), hl, bne_iff_ne.mpr h]
  rfl

theorem selectorRefusal_eq_none {sbz sbzLockable : Refusal} {v : Word} : selectorRefusal sbz sbzLockable v = none ↔ WfSel v := by
  simp [selectorRefusal, firstRefusal_eq_none, -List.mem_cons, List.forall_mem_cons, WfSel, or_iff_not_imp_left]

/-- The commit checks in their order (rule R111). -/
theorem commitRefusal_eq (l : Launch) (e : TlbEntry) :
    commitRefusal l e =
      if WfPa e.pa then
        if WfAttr e.attr then
          if e.va &&& untrans (e.pa.extractLsb' 6 4) = 0 then
            if e.attr.getLsbD 25 = false ∨ l.isGlobal (e.va.extractLsb' 0 10) = true then none
            else some .commitSpvNonglobal
          else some .commitVpn
        else some .commitAttr
      else some .commitPa := by
  have hpa : ((paRefusal e.pa).isSome = true) = ¬ WfPa e.pa := by
    rw [← paRefusal_eq_none, Option.isSome_iff_ne_none]
  have hattr : ((attrRefusal e.attr).isSome = true) = ¬ WfAttr e.attr := by
    rw [← attrRefusal_eq_none, Option.isSome_iff_ne_none]
  have hglobal : ((spvBit e.attr && !l.isGlobal (processField e.va)) = true) =
      ¬ (e.attr.getLsbD 25 = false ∨ l.isGlobal (e.va.extractLsb' 0 10) = true) := by
    simp [spvBit, processField]
  simp only [commitRefusal, firstRefusal, hpa, hattr, hglobal, bne_iff_ne, ne_eq, ite_not]
  rfl

/-! The 72 legal selectors (rules R27, R55). -/

/-- L = 0: way and set as the two digits of the selector. -/
theorem legalSelector_setAssoc {v : Word} {way : Fin 2} {set : Fin 32} (h : v.toNat = 32 * way.val + set.val) :
    WfSel v ∧ selectedSlot v = .setAssoc way set := by
  have table : ∀ (way : Fin 2) (set : Fin 32), WfSel (BitVec.ofNat 32 (32 * way.val + set.val)) ∧
      selectedSlot (BitVec.ofNat 32 (32 * way.val + set.val)) = .setAssoc way set := by decide
  have hv : v = BitVec.ofNat 32 (32 * way.val + set.val) := by rw [← h, BitVec.ofNat_toNat, BitVec.setWidth_eq]
  exact hv ▸ table way set

/-- L = 1: the index of the lockable entry below bit 31. -/
theorem legalSelector_lockable {v : Word} {k : Fin 8} (h : v.toNat = 0x80000000 + k.val) :
    WfSel v ∧ selectedSlot v = .lockable k := by
  have table : ∀ k : Fin 8, WfSel (BitVec.ofNat 32 (0x80000000 + k.val)) ∧
      selectedSlot (BitVec.ofNat 32 (0x80000000 + k.val)) = .lockable k := by decide
  have hv : v = BitVec.ofNat 32 (0x80000000 + k.val) := by rw [← h, BitVec.ofNat_toNat, BitVec.setWidth_eq]
  exact hv ▸ table k

/-! The two entry registers under decision D7. -/

theorem selectForRead_onEntryWrite {s : State} (ht : TransfersOnEntryWrite s) (slot : MainSlot) :
    selectForRead s slot =
      { s with mtva := (s.tlbs.mainEntry slot).va, mtpa := (s.tlbs.mainEntry slot).pa, mtattr := (s.tlbs.mainEntry slot).attr } := by
  rw [selectForRead, ht]
  rfl

theorem selectForWriteRefusal_onEntryWrite {s : State} (ht : TransfersOnEntryWrite s) :
    selectForWriteRefusal s = commitRefusal s.launch ⟨s.mtva, s.mtpa, s.mtattr⟩ := by
  rw [selectForWriteRefusal, ht]

theorem selectForWrite_onEntryWrite {s : State} (ht : TransfersOnEntryWrite s) (slot : MainSlot) :
    selectForWrite s slot = s.setTlbs (s.tlbs.setMain slot ⟨s.mtva, s.mtpa, s.mtattr⟩) := by
  rw [selectForWrite, ht]

/-- With a legal selector what is left to check of a commit is the holding registers. -/
theorem writeRefusal_mcrWmte {r : Fin 15} {s : State} (ht : TransfersOnEntryWrite s) (hsel : WfSel s.x[r]) (rd : Fin 16) :
    writeRefusal s r (.mcrWmte rd) = commitRefusal s.launch ⟨s.mtva, s.mtpa, s.mtattr⟩ := by
  rw [writeRefusal, selectorRefusal_eq_none.mpr hsel, Option.none_or, selectForWriteRefusal_onEntryWrite ht]

theorem exec_mcrRmte_completes {r : Fin 15} {s : State} {e : TlbEntry} (ready : Ready s) (ht : TransfersOnEntryWrite s)
    (hsel : WfSel s.x[r]) (he : s.tlbs.mainEntry (selectedSlot s.x[r]) = e) :
    exec (.mcrRmte (rdOf r)) s = .next { s with mtva := e.va, mtpa := e.pa, mtattr := e.attr, pc := s.pc + 4 } := by
  have passed : writeRefusal s r (.mcrRmte (rdOf r)) = none := selectorRefusal_eq_none.mpr hsel
  rw [exec_write_completes (r := r) rfl rfl rfl ready passed, writtenState, selectForRead_onEntryWrite ht, he]
  rfl

/-- A failed commit check refuses the commit. -/
theorem exec_mcrWmte_refused {r : Fin 15} {s : State} {q : Refusal} (hp : s.launch.priv = true) (ht : TransfersOnEntryWrite s)
    (hsel : WfSel s.x[r]) (hq : commitRefusal s.launch ⟨s.mtva, s.mtpa, s.mtattr⟩ = some q) :
    exec (.mcrWmte (rdOf r)) s = .refused q :=
  exec_write_refused (r := r) rfl rfl rfl hp ((writeRefusal_mcrWmte ht hsel _).trans hq)

theorem exec_mcrWmte_completes {r : Fin 15} {s : State} {slot : MainSlot} (ready : Ready s) (ht : TransfersOnEntryWrite s)
    (hsel : WfSel s.x[r]) (hslot : selectedSlot s.x[r] = slot) (hcommit : WfCommit s) :
    exec (.mcrWmte (rdOf r)) s =
      .next { s with pc := s.pc + 4, tlbs := s.tlbs.setMain slot ⟨s.mtva, s.mtpa, s.mtattr⟩ } := by
  obtain ⟨hpa, hattr, hvpn, hglobal⟩ := hcommit
  have passed : writeRefusal s r (.mcrWmte (rdOf r)) = none := by
    rw [writeRefusal_mcrWmte ht hsel, commitRefusal_eq, if_pos hpa, if_pos hattr, if_pos hvpn, if_pos hglobal]
  rw [exec_write_completes (r := r) rfl rfl rfl ready passed, writtenState, hslot, selectForWrite_onEntryWrite ht]
  rfl

/-- Settles O20: the two checks of a selector, then the copy of the entry that each legal selector names. -/
theorem loadHoldingRegistersFromMainTlb : Obligations.LoadHoldingRegistersFromMainTlb := by
  intro r s
  obtain ⟨hword, huser⟩ := word_and_userUndefined_of_row (word := 0xEEAF0F54) (form := .mcrRmte) (by simp [opcodeMap]) r s
  refine ⟨hword, huser, fun ⟨hp, room⟩ ht => ⟨fun hsbz => ?_, fun hsbz hl hlk => ?_, fun way set hv => ?_, fun k hv => ?_⟩⟩
  · exact exec_write_refused (r := r) rfl rfl rfl hp (selectorRefusal_of_sbz hsbz)
  · exact exec_write_refused (r := r) rfl rfl rfl hp (selectorRefusal_of_lockable hsbz hl hlk)
  · obtain ⟨hsel, hslot⟩ := legalSelector_setAssoc hv
    exact exec_mcrRmte_completes ⟨hp, room⟩ ht hsel (congrArg s.tlbs.mainEntry hslot)
  · obtain ⟨hsel, hslot⟩ := legalSelector_lockable hv
    exact exec_mcrRmte_completes ⟨hp, room⟩ ht hsel (congrArg s.tlbs.mainEntry hslot)

/-- Settles O21: the two checks of the selector, the four of the commit, then the entry that each legal selector names. -/
theorem commitHoldingRegistersToMainTlb : Obligations.CommitHoldingRegistersToMainTlb := by
  intro r s
  obtain ⟨hword, huser⟩ := word_and_userUndefined_of_row (word := 0xEEAF0F94) (form := .mcrWmte) (by simp [opcodeMap]) r s
  refine ⟨hword, huser, fun ⟨hp, room⟩ ht => ⟨fun hsbz => ?_, fun hsbz hl hlk => ?_, fun hsel hpa => ?_, fun hsel hpa hattr => ?_,
    fun hsel hpa hattr hvpn => ?_, fun hsel hpa hattr hvpn hglobal => ?_,
    fun hpa hattr hvpn hglobal => ⟨fun way set hv => ?_, fun k hv => ?_⟩⟩⟩
  · exact exec_write_refused (r := r) rfl rfl rfl hp (by rw [writeRefusal, selectorRefusal_of_sbz hsbz, Option.some_or])
  · exact exec_write_refused (r := r) rfl rfl rfl hp
      (by rw [writeRefusal, selectorRefusal_of_lockable hsbz hl hlk, Option.some_or])
  · exact exec_mcrWmte_refused hp ht hsel (by rw [commitRefusal_eq, if_neg hpa])
  · exact exec_mcrWmte_refused hp ht hsel (by rw [commitRefusal_eq, if_pos hpa, if_neg hattr])
  · exact exec_mcrWmte_refused hp ht hsel (by rw [commitRefusal_eq, if_pos hpa, if_pos hattr, if_neg hvpn])
  · exact exec_mcrWmte_refused hp ht hsel (by rw [commitRefusal_eq, if_pos hpa, if_pos hattr, if_pos hvpn, if_neg hglobal])
  · obtain ⟨hsel, hslot⟩ := legalSelector_setAssoc hv
    exact exec_mcrWmte_completes ⟨hp, room⟩ ht hsel hslot ⟨hpa, hattr, hvpn, hglobal⟩
  · obtain ⟨hsel, hslot⟩ := legalSelector_lockable hv
    exact exec_mcrWmte_completes ⟨hp, room⟩ ht hsel hslot ⟨hpa, hattr, hvpn, hglobal⟩

/-! Reading a commit back. -/

/-- With both main TLB load bits set the gap leaves every main TLB entry alone (rule R75). -/
theorem envGap_mainEntry_frozen {s : State} (himl : s.tlbdbg.getLsbD 5 = true) (hdml : s.tlbdbg.getLsbD 4 = true)
    (slot : MainSlot) : (envGap s).tlbs.mainEntry slot = s.tlbs.mainEntry slot := by
  have hfrozen : envMayRewrite s.tlbdbg (.main slot) = false := by
    simp only [envMayRewrite, himl, hdml, Bool.not_true, Bool.or_false]
  exact envRun_entry_frozen hfrozen (Config.envMoves s.draws) s.tlbs

/-- So an entry that was just replaced is still there after the gap. -/
theorem envGap_mainEntry_of_setMain {s : State} {t : Tlbs} {slot : MainSlot} {e : TlbEntry} (himl : s.tlbdbg.getLsbD 5 = true)
    (hdml : s.tlbdbg.getLsbD 4 = true) (h : s.tlbs = t.setMain slot e) : (envGap s).tlbs.mainEntry slot = e := by
  rw [envGap_mainEntry_frozen himl hdml, h, Tlbs.mainEntry_setMain, if_pos rfl]

/-- Settles O54: the commit puts the words into the selected entry, the gap leaves it alone, and the load reads that entry. -/
theorem committedEntryReadsBack : Obligations.CommittedEntryReadsBack := by
  intro s r a b c ht hp room himl hdml hsel hcommit
  have roomAfter : (s.pc + 4).toNat + 4 ≤ 0xFFFFFFFC := by bv_omega
  exact ⟨_, _, exec_mcrWmte_completes ⟨hp, by omega⟩ ht hsel rfl hcommit,
    exec_mcrRmte_completes ⟨hp, roomAfter⟩ ht hsel (envGap_mainEntry_of_setMain himl hdml rfl), rfl, rfl, rfl⟩

end Sys2Proof.Machine
end

/-! The TLB VA registers: the two MicroTLB views (O22, O23) and the main TLB's register (O24, O25); and the three views of one
frozen Data MicroTLB entry (O55). -/

section
namespace Sys2Proof.Machine

/-! What a view shows: the entry its index names, and with an index over 10 any word (rules R26, R56). -/

theorem microReadable_of_index {entries : Vector TlbEntry 11} {index : BitVec 4} {view : TlbEntry → Readable} {k : Fin 11}
    (h : index.toNat = k.val) : microReadable entries index view = view entries[k] := by
  simp [microReadable, h]

/-- With room a read answers its stored word outside its mask (rule R7). -/
theorem readAnswers_merged {r : Fin 15} {s : State} (room : s.pc.toNat + 4 ≤ 0xFFFFFFFC) (v : Readable) :
    ReadAnswers s r (completeRead r v s) (Merged v.stored v.mask) :=
  readAnswers_completeRead room fun d => ⟨d, rfl⟩

/-- With room a read of a MicroTLB view answers the word of the indexed entry outside its mask, or some word. -/
theorem readAnswers_microReadable {r : Fin 15} {s : State} (room : s.pc.toNat + 4 ≤ 0xFFFFFFFC) (entries : Vector TlbEntry 11)
    (index : BitVec 4) (view : TlbEntry → Readable) :
    (∀ k : Fin 11, index.toNat = k.val → ReadAnswers s r (completeRead r (microReadable entries index view) s)
      (Merged (view entries[k]).stored (view entries[k]).mask)) ∧
    (10 < index.toNat → ReadAnswers s r (completeRead r (microReadable entries index view) s) fun _ => True) := by
  refine ⟨fun k hk => ?_, fun _ => readAnswers_completeRead room fun _ => trivial⟩
  rw [microReadable_of_index hk]
  exact readAnswers_merged room _

/-! The holding registers under decision D7. -/

theorem mainWindow_onEntryWrite {s : State} (ht : TransfersOnEntryWrite s) : mainWindow s = ⟨s.mtva, s.mtpa, s.mtattr⟩ := by
  rw [mainWindow, ht]

theorem writeMtva_onEntryWrite {s : State} (ht : TransfersOnEntryWrite s) (v : Word) : writeMtva s v = s.setMtva v := by
  rw [writeMtva, ht]

/-- Settles O22: a read of the view of `DTLBu` through `DMIDX`. -/
theorem readDataMicroTlbVa : Obligations.ReadDataMicroTlbVa := by
  intro r s
  obtain ⟨hword, huser⟩ := word_and_userUndefined_of_row (word := 0xEEBF0F15) (form := .mrcDmva) (by simp [opcodeMap]) r s
  refine ⟨hword, huser, fun ⟨hpriv, room⟩ => ?_⟩
  rw [exec_mrcDmva, prologue_rdOf rfl hpriv]
  exact readAnswers_microReadable room s.tlbs.data s.dmidx vaReadable

/-- Settles O23: a read of the view of `ITLBu` through `IMIDX`. -/
theorem readInstructionMicroTlbVa : Obligations.ReadInstructionMicroTlbVa := by
  intro r s
  obtain ⟨hword, huser⟩ := word_and_userUndefined_of_row (word := 0xEEBF0F35) (form := .mrcImva) (by simp [opcodeMap]) r s
  refine ⟨hword, huser, fun ⟨hpriv, room⟩ => ?_⟩
  rw [exec_mrcImva, prologue_rdOf rfl hpriv]
  exact readAnswers_microReadable room s.tlbs.instruction s.imidx vaReadable

/-- Settles O24: a read of the holding register, its mask taken from `MTPA` at the moment of the read. -/
theorem readMainTlbVa : Obligations.ReadMainTlbVa := by
  intro r s
  obtain ⟨hword, huser⟩ := word_and_userUndefined_of_row (word := 0xEEBF0F55) (form := .mrcMtva) (by simp [opcodeMap]) r s
  refine ⟨hword, huser, fun ⟨hpriv, room⟩ ht => ?_⟩
  rw [exec_mrcMtva, prologue_rdOf rfl hpriv, mainWindow_onEntryWrite ht]
  exact readAnswers_merged room (vaReadable ⟨s.mtva, s.mtpa, s.mtattr⟩)

/-- Settles O25: the one write that has no check. -/
theorem writeMainTlbVa : Obligations.WriteMainTlbVa := by
  intro r s
  obtain ⟨hword, huser⟩ := word_and_userUndefined_of_row (word := 0xEEAF0F55) (form := .mcrMtva) (by simp [opcodeMap]) r s
  refine ⟨hword, huser, fun ready ht => ?_⟩
  rw [exec_write_completes (r := r) rfl rfl rfl ready rfl, writtenState, writeMtva_onEntryWrite ht]
  rfl

/-! Three views of one frozen entry. What they rest on is kept by a gap and by each of the three reads, so the reads compose. -/

/-- The core is privileged and the data views show entry `e`, which stands in slot `k` of a frozen Data MicroTLB (rule R73). -/
structure ViewsFrozen (k : Fin 11) (e : TlbEntry) (s : State) : Prop where
  frozen : s.tlbdbg.getLsbD 0 = true
  index : s.dmidx.toNat = k.val
  priv : s.launch.priv = true
  entry : s.tlbs.data[k] = e

/-- With DUL set the gap leaves every Data MicroTLB entry alone (rule R73). -/
theorem envGap_data_frozen {s : State} (hdul : s.tlbdbg.getLsbD 0 = true) (k : Fin 11) :
    (envGap s).tlbs.data[k] = s.tlbs.data[k] := by
  have hfrozen : envMayRewrite s.tlbdbg (.data k) = false := by simp only [envMayRewrite, hdul, Bool.not_true]
  exact envRun_entry_frozen hfrozen (Config.envMoves s.draws) s.tlbs

section
variable {k : Fin 11} {e : TlbEntry} {s : State}

theorem ViewsFrozen.gap (h : ViewsFrozen k e s) : ViewsFrozen k e (envGap s) :=
  ⟨h.frozen, h.index, h.priv, (envGap_data_frozen h.frozen k).trans h.entry⟩

/-- A data view read completes with the word of the indexed entry under the view's mask. -/
theorem exec_dataView_completes {i : Instr} {r : Fin 15} {view : TlbEntry → Readable} (hrd : i.rd = rdOf r)
    (hi : exec i s = prologue i s fun r => completeRead r (microReadable s.tlbs.data s.dmidx view) s) (ready : Ready s)
    (hk : s.dmidx.toNat = k.val) :
    exec i s = .next (((s.setX r (merge (view s.tlbs.data[k]) (Config.freeWord s.draws))).setDraws (s.draws + 1)).setPc
      (s.pc + 4)) := by
  obtain ⟨hpriv, room⟩ := ready
  rw [hi, prologue_rdOf hrd hpriv, microReadable_of_index hk]
  exact completeRead_eq_next.mpr ⟨room, rfl⟩

/-- After a gap it shows `e`, and it keeps what the next view rests on. -/
theorem ViewsFrozen.read (h : ViewsFrozen k e s) {i : Instr} {r : Fin 15} {view : TlbEntry → Readable} (hrd : i.rd = rdOf r)
    (hi : ∀ u, exec i u = prologue i u fun r => completeRead r (microReadable u.tlbs.data u.dmidx view) u)
    (room : s.pc.toNat + 4 ≤ 0xFFFFFFFC) :
    ∃ t d, exec i (envGap s) = .next t ∧ ViewsFrozen k e t ∧ t.pc = s.pc + 4 ∧ t.x = s.x.set r (merge (view e) d) := by
  have hgap := h.gap
  have hexec := exec_dataView_completes hrd (hi (envGap s)) ⟨hgap.priv, room⟩ hgap.index
  rw [hgap.entry] at hexec
  exact ⟨_, _, hexec, ⟨hgap.frozen, hgap.index, hgap.priv, hgap.entry⟩, rfl, rfl⟩

end

/-- The bits of a Data MicroTLB Attribute read that carry information, with bit 25 as 0 (rules R40, R140). -/
theorem merge_dataAttrReadable_keep (e : TlbEntry) (d : Word) :
    merge (dataAttrReadable e) d &&& 0x020001EF = e.attr &&& 0x000001EF := by
  rw [merge_keep d (by simp [dataAttrReadable]), dataAttrReadable, BitVec.and_assoc]
  rfl

/-- Settles O55: each read shows the entry that was there at the start, and leaves the registers read before it alone. -/
theorem frozenViewsShowOneEntry : Obligations.FrozenViewsShowOneEntry := by
  intro s k p q r hdul hidx hpriv room hpq hpr hqr
  have h : ViewsFrozen k s.tlbs.data[k] s := ⟨hdul, hidx, hpriv, rfl⟩
  obtain ⟨t, a, ht, h, htpc, htx⟩ := h.read (r := p) rfl (exec_mrcDmva (rdOf p)) (by omega)
  obtain ⟨u, b, hu, h, hupc, hux⟩ := h.read (r := q) rfl (exec_mrcDmpa (rdOf q)) (by bv_omega)
  obtain ⟨v, c, hv, -, -, hvx⟩ := h.read (r := r) rfl (exec_mrcDmattr (rdOf r)) (by bv_omega)
  have hp : v.x[p] = merge (vaReadable s.tlbs.data[k]) a := by
    simp [hvx, hux, htx, Fin.val_inj, hpq.symm, hpr.symm]
  have hq : v.x[q] = merge (paReadable s.tlbs.data[k]) b := by
    simp [hvx, hux, Fin.val_inj, hqr.symm]
  have hr : v.x[r] = merge (dataAttrReadable s.tlbs.data[k]) c := by simp [hvx]
  refine ⟨t, u, v, ht, hu, hv, ?_, ?_, ?_⟩
  · rw [hp]
    exact merge_keep a (BitVec.and_not_self _)
  · rw [hq]
    exact merge_keep b (BitVec.and_not_self _)
  · rw [hr]
    exact merge_dataAttrReadable_keep _ c

end Sys2Proof.Machine
end

/-! The TLB PA registers: the two MicroTLB views (O26, O27) and the main TLB's register (O28, O29); and a frozen Data MicroTLB,
which two reads of its PA view agree on (O45). -/

section
namespace Sys2Proof.Machine

/-! The reads. -/

/-- Settles O26: a read of the view of `DTLBu` through `DMIDX`. -/
theorem readDataMicroTlbPa : Obligations.ReadDataMicroTlbPa := by
  intro r s
  obtain ⟨hword, huser⟩ := word_and_userUndefined_of_row (word := 0xEEBF0F16) (form := .mrcDmpa) (by simp [opcodeMap]) r s
  refine ⟨hword, huser, fun ⟨hpriv, room⟩ => ?_⟩
  rw [exec_mrcDmpa, prologue_rdOf rfl hpriv]
  exact readAnswers_microReadable room s.tlbs.data s.dmidx paReadable

/-- Settles O27: a read of the view of `ITLBu` through `IMIDX`. -/
theorem readInstructionMicroTlbPa : Obligations.ReadInstructionMicroTlbPa := by
  intro r s
  obtain ⟨hword, huser⟩ := word_and_userUndefined_of_row (word := 0xEEBF0F36) (form := .mrcImpa) (by simp [opcodeMap]) r s
  refine ⟨hword, huser, fun ⟨hpriv, room⟩ => ?_⟩
  rw [exec_mrcImpa, prologue_rdOf rfl hpriv]
  exact readAnswers_microReadable room s.tlbs.instruction s.imidx paReadable

/-- Settles O28: a read of the holding register, its mask taken from its own SZ. -/
theorem readMainTlbPa : Obligations.ReadMainTlbPa := by
  intro r s
  obtain ⟨hword, huser⟩ := word_and_userUndefined_of_row (word := 0xEEBF0F56) (form := .mrcMtpa) (by simp [opcodeMap]) r s
  refine ⟨hword, huser, fun ⟨hpriv, room⟩ ht => ?_⟩
  rw [exec_mrcMtpa, prologue_rdOf rfl hpriv, mainWindow_onEntryWrite ht]
  exact readAnswers_merged room (paReadable ⟨s.mtva, s.mtpa, s.mtattr⟩)

/-! The write. -/

/-- The checks of a PA word in their order (rule R133). -/
theorem paRefusal_eq (v : Word) :
    paRefusal v =
      if v.extractLsb' 6 4 ∈ [0b1110#4, 0b1000#4, 0b0000#4, 0b0001#4] then
        if v.extractLsb' 1 3 = 0b111 then some .apReserved
        else if v &&& untrans (v.extractLsb' 6 4) = 0 then none
        else some .sbzPpn
      else some .szReservedOrMicroTlbOnly := by
  have hsz : ((!szMain (szField v)) = true) = ¬ v.extractLsb' 6 4 ∈ [0b1110#4, 0b1000#4, 0b0000#4, 0b0001#4] := by
    rw [← szMain_iff, Bool.not_eq_true', Bool.not_eq_true, szField]
  simp only [paRefusal, firstRefusal, hsz, beq_iff_eq, bne_iff_ne, ne_eq, ite_not]
  rfl

theorem writeMtpa_onEntryWrite {s : State} (ht : TransfersOnEntryWrite s) (v : Word) : writeMtpa s v = s.setMtpa v := by
  rw [writeMtpa, ht]

/-- A failed check of the PA word refuses the write. -/
theorem exec_mcrMtpa_refused {r : Fin 15} {s : State} {q : Refusal} (hp : s.launch.priv = true)
    (hq : paRefusal s.x[r] = some q) : exec (.mcrMtpa (rdOf r)) s = .refused q :=
  exec_write_refused (r := r) rfl rfl rfl hp hq

/-- Settles O29: the three checks of a PA word, then the write of the holding register. -/
theorem writeMainTlbPa : Obligations.WriteMainTlbPa := by
  intro r s
  obtain ⟨hword, huser⟩ := word_and_userUndefined_of_row (word := 0xEEAF0F56) (form := .mcrMtpa) (by simp [opcodeMap]) r s
  refine ⟨hword, huser, fun ⟨hp, room⟩ ht => ⟨fun hsz => ?_, fun hsz hap => ?_, fun hsz hap hppn => ?_, fun hsz hap hppn => ?_⟩⟩
  · exact exec_mcrMtpa_refused hp (by rw [paRefusal_eq, if_neg hsz])
  · exact exec_mcrMtpa_refused hp (by rw [paRefusal_eq, if_pos hsz, if_pos hap])
  · exact exec_mcrMtpa_refused hp (by rw [paRefusal_eq, if_pos hsz, if_neg hap, if_neg hppn])
  · have passed : writeRefusal s r (.mcrMtpa (rdOf r)) = none := paRefusal_eq_none.mpr ⟨hsz, hap, hppn⟩
    rw [exec_write_completes (r := r) rfl rfl rfl ⟨hp, room⟩ passed, writtenState, writeMtpa_onEntryWrite ht]
    rfl

/-! A frozen Data MicroTLB. -/

/-- With DUL set a completed step leaves the whole Data MicroTLB as it was: the gap may not change it, and no form can. -/
theorem step_data_frozen {s t : State} (hdul : s.tlbdbg.getLsbD 0 = true) (h : step s = .next t) :
    t.tlbs.data = s.tlbs.data := by
  obtain ⟨i, -, hexec⟩ := step_eq_next.mp h
  calc t.tlbs.data = (envGap s).tlbs.data := (exec_tlbs hexec).data
    _ = s.tlbs.data := Vector.ext fun k hk => envGap_data_frozen hdul ⟨k, hk⟩

/-- A data view read that completed showed the frozen entry under the view's mask, and kept what the next view rests on. -/
theorem ViewsFrozen.exec_next {k : Fin 11} {e : TlbEntry} {s t : State} (h : ViewsFrozen k e s) {i : Instr} {r : Fin 15}
    {view : TlbEntry → Readable} (hrd : i.rd = rdOf r)
    (hi : exec i s = prologue i s fun r => completeRead r (microReadable s.tlbs.data s.dmidx view) s)
    (ht : exec i s = .next t) : ViewsFrozen k e t ∧ ∃ d, t.x[r] = merge (view e) d := by
  obtain ⟨-, ready, -⟩ := exec_eq_next_cases ht
  have hnext := exec_dataView_completes hrd hi ready h.index
  rw [h.entry, ht] at hnext
  injection hnext with hnext
  subst hnext
  exact ⟨⟨h.frozen, h.index, h.priv, h.entry⟩, Config.freeWord s.draws, by simp⟩

/-- Settles O45: neither the gap nor a form changes the Data MicroTLB, so both reads show one entry under one mask. -/
theorem dataMicroTlbIsFrozenWhileDulIsSet : Obligations.DataMicroTlbIsFrozenWhileDulIsSet := by
  refine ⟨fun s t => step_data_frozen, fun s t u r q k hdul hidx ht hu => ?_⟩
  obtain ⟨-, ⟨hpriv, -⟩, -⟩ := exec_eq_next_cases ht
  have h : ViewsFrozen k s.tlbs.data[k] s := ⟨hdul, hidx, hpriv, rfl⟩
  obtain ⟨h, a, hr⟩ := h.exec_next (r := r) rfl (exec_mrcDmpa (rdOf r) s) ht
  obtain ⟨-, b, hq⟩ := h.gap.exec_next (r := q) rfl (exec_mrcDmpa (rdOf q) (envGap t)) hu
  have outside (d : Word) := merge_keep (r := paReadable s.tlbs.data[k]) d (BitVec.and_not_self _)
  rw [hr, hq]
  exact (outside a).trans (outside b).symm

end Sys2Proof.Machine
end

/-! The TLB Attribute registers: the two MicroTLB views (O30, O31) and the main TLB's register (O32, O33). -/

section
namespace Sys2Proof.Machine

/-! The fields of a merged word are free where the mask covers them and stored where it leaves them out (rule R7); those of a
masked word are kept or zero in the same way. -/

theorem extractLsb'_merge_free {stored mask d : Word} {k n : Nat} (h : mask.extractLsb' k n = BitVec.allOnes n) :
    (merge ⟨stored, mask⟩ d).extractLsb' k n = d.extractLsb' k n := by
  ext i hi
  have hmask : mask.getLsbD (k + i) = true := by simpa using congrArg (·[i]) h
  simp [merge, hmask]

theorem extractLsb'_merge_stored {stored mask d : Word} {k n : Nat} (h : mask.extractLsb' k n = 0#n) :
    (merge ⟨stored, mask⟩ d).extractLsb' k n = stored.extractLsb' k n := by
  ext i hi
  have hmask : mask.getLsbD (k + i) = false := by simpa using congrArg (·[i]) h
  simpa [merge, hmask] using BitVec.lt_of_getLsbD

theorem extractLsb'_and_of_zero {w m : Word} {k n : Nat} (h : m.extractLsb' k n = 0#n) :
    (w &&& m).extractLsb' k n = 0#n := by
  rw [BitVec.extractLsb'_and, h, BitVec.and_zero]

theorem extractLsb'_and_of_allOnes {w m : Word} {k n : Nat} (h : m.extractLsb' k n = BitVec.allOnes n) :
    (w &&& m).extractLsb' k n = w.extractLsb' k n := by
  rw [BitVec.extractLsb'_and, h, BitVec.and_allOnes]

/-! The Attribute word of a MicroTLB entry. -/

/-- An Attribute word, field by field from bit 31 down (rules R39, R40). -/
theorem word_eq_attrFields (w : Word) :
    w = w.extractLsb' 26 6 ++ w.extractLsb' 25 1 ++ w.extractLsb' 9 16 ++ w.extractLsb' 5 4 ++ w.extractLsb' 4 1 ++
      w.extractLsb' 1 3 ++ w.extractLsb' 0 1 := by
  iterate 6 rw [BitVec.extractLsb'_append_extractLsb'_eq_extractLsb']
  · exact BitVec.extractLsb'_eq_self.symm
  all_goals rfl

/-- A Data MicroTLB Attribute read shows Domain, RGN and S, with a zero at bit 25 (rule R140). -/
theorem merge_dataAttrReadable (e : TlbEntry) (d : Word) :
    merge (dataAttrReadable e) d =
      d.extractLsb' 26 6 ++ 0#1 ++ d.extractLsb' 9 16 ++ e.attr.extractLsb' 5 4 ++ d.extractLsb' 4 1 ++
        e.attr.extractLsb' 1 3 ++ e.attr.extractLsb' 0 1 := by
  rw [word_eq_attrFields (merge (dataAttrReadable e) d), dataAttrReadable]
  simp (disch := decide) only [extractLsb'_merge_free, extractLsb'_merge_stored, extractLsb'_and_of_zero,
    extractLsb'_and_of_allOnes]

/-- An Instruction MicroTLB Attribute read shows XN too (rule R141). -/
theorem merge_instructionAttrReadable (e : TlbEntry) (d : Word) :
    merge (instructionAttrReadable e) d =
      d.extractLsb' 26 6 ++ 0#1 ++ d.extractLsb' 9 16 ++ e.attr.extractLsb' 5 4 ++ e.attr.extractLsb' 4 1 ++
        e.attr.extractLsb' 1 3 ++ e.attr.extractLsb' 0 1 := by
  rw [word_eq_attrFields (merge (instructionAttrReadable e) d), instructionAttrReadable]
  simp (disch := decide) only [extractLsb'_merge_free, extractLsb'_merge_stored, extractLsb'_and_of_zero,
    extractLsb'_and_of_allOnes]

/-! The reads. -/

/-- A read that answers one set of words answers any larger set. -/
theorem ReadAnswers.imp {s : State} {r : Fin 15} {o : Out} {p q : Word → Prop} (h : ReadAnswers s r o p)
    (hpq : ∀ v, p v → q v) : ReadAnswers s r o q := by
  obtain ⟨v, n, hv, ho⟩ := h
  exact ⟨v, n, hpq v hv, ho⟩

/-- Settles O30: a read of the view of `DTLBu` through `DMIDX`. -/
theorem readDataMicroTlbAttributes : Obligations.ReadDataMicroTlbAttributes := by
  intro r s
  obtain ⟨hword, huser⟩ := word_and_userUndefined_of_row (word := 0xEEBF0F17) (form := .mrcDmattr) (by simp [opcodeMap]) r s
  refine ⟨hword, huser, fun ⟨hpriv, room⟩ => ?_⟩
  rw [exec_mrcDmattr, prologue_rdOf rfl hpriv]
  obtain ⟨shows, any⟩ := readAnswers_microReadable (r := r) room s.tlbs.data s.dmidx dataAttrReadable
  exact ⟨fun k hk => (shows k hk).imp fun v ⟨d, hv⟩ => ⟨_, _, _, hv.trans (merge_dataAttrReadable _ d)⟩, any⟩

/-- Settles O31: a read of the view of `ITLBu` through `IMIDX`. -/
theorem readInstructionMicroTlbAttributes : Obligations.ReadInstructionMicroTlbAttributes := by
  intro r s
  obtain ⟨hword, huser⟩ := word_and_userUndefined_of_row (word := 0xEEBF0F37) (form := .mrcImattr) (by simp [opcodeMap]) r s
  refine ⟨hword, huser, fun ⟨hpriv, room⟩ => ?_⟩
  rw [exec_mrcImattr, prologue_rdOf rfl hpriv]
  obtain ⟨shows, any⟩ := readAnswers_microReadable (r := r) room s.tlbs.instruction s.imidx instructionAttrReadable
  exact ⟨fun k hk => (shows k hk).imp fun v ⟨d, hv⟩ => ⟨_, _, hv.trans (merge_instructionAttrReadable _ d)⟩, any⟩

/-- Settles O32: a read of the holding register, its mask taken from its own SPV. -/
theorem readMainTlbAttributes : Obligations.ReadMainTlbAttributes := by
  intro r s
  obtain ⟨hword, huser⟩ := word_and_userUndefined_of_row (word := 0xEEBF0F57) (form := .mrcMtattr) (by simp [opcodeMap]) r s
  refine ⟨hword, huser, fun ⟨hpriv, room⟩ ht => ?_⟩
  rw [exec_mrcMtattr, prologue_rdOf rfl hpriv, mainWindow_onEntryWrite ht]
  exact readAnswers_merged room (mainAttrReadable ⟨s.mtva, s.mtpa, s.mtattr⟩)

/-! The write. -/

/-- The reserved RGN values are the three that rule R42 names. -/
theorem rgnLegal_eq_false_iff : ∀ rgn : BitVec 3, rgnLegal rgn = false ↔ rgn ∈ [0b010#3, 0b100#3, 0b101#3] := by decide

/-- The checks of an Attribute word in their order (rule R143). -/
theorem attrRefusal_eq (v : Word) :
    attrRefusal v =
      if v.extractLsb' 9 16 = 0 then
        if v.getLsbD 25 = false ∧ v.extractLsb' 26 6 ≠ 0 then some .sbzApNoSubpages
        else if v.extractLsb' 1 3 ∈ [0b010#3, 0b100#3, 0b101#3] then some .rgnReserved
        else none
      else some .sbzAttr := by
  simp only [attrRefusal, firstRefusal, Bool.and_eq_true, Bool.not_eq_true', rgnLegal_eq_false_iff, bne_iff_ne, ne_eq,
    ite_not]
  rfl

theorem writeMtattr_onEntryWrite {s : State} (ht : TransfersOnEntryWrite s) (v : Word) : writeMtattr s v = s.setMtattr v := by
  rw [writeMtattr, ht]

/-- A failed check of the Attribute word refuses the write. -/
theorem exec_mcrMtattr_refused {r : Fin 15} {s : State} {q : Refusal} (hp : s.launch.priv = true)
    (hq : attrRefusal s.x[r] = some q) : exec (.mcrMtattr (rdOf r)) s = .refused q :=
  exec_write_refused (r := r) rfl rfl rfl hp hq

/-- Settles O33: the three checks of an Attribute word, then the write of the holding register. -/
theorem writeMainTlbAttributes : Obligations.WriteMainTlbAttributes := by
  intro r s
  obtain ⟨hword, huser⟩ := word_and_userUndefined_of_row (word := 0xEEAF0F57) (form := .mcrMtattr) (by simp [opcodeMap]) r s
  refine ⟨hword, huser, fun ⟨hp, room⟩ ht => ⟨fun hsbz => ?_, fun hsbz hap => ?_, fun hsbz hap hrgn => ?_,
    fun hsbz hap hrgn => ?_⟩⟩
  · exact exec_mcrMtattr_refused hp (by rw [attrRefusal_eq, if_neg hsbz])
  · exact exec_mcrMtattr_refused hp (by rw [attrRefusal_eq, if_pos hsbz, if_pos hap])
  · exact exec_mcrMtattr_refused hp (by rw [attrRefusal_eq, if_pos hsbz, if_neg hap, if_pos hrgn])
  · have passed : writeRefusal s r (.mcrMtattr (rdOf r)) = none := by
      rw [writeRefusal, attrRefusal_eq, if_pos hsbz, if_neg hap, if_neg hrgn]
    rw [exec_write_completes (r := r) rfl rfl rfl ⟨hp, room⟩ passed, writtenState, writeMtattr_onEntryWrite ht]
    rfl

end Sys2Proof.Machine
end

/-! The TLB Debug Control register: reading it (O34), writing it (O35), the values it accepts (O50), and the pairs IMM = DMM and
IML = DML that every step keeps (O41). -/

section
namespace Sys2Proof.Machine

/-! The checks of a written word (rules R46, R49, R151). -/

/-- The checks of a `TLBDBG` word in their order (rule R151). -/
theorem debugRefusal_eq (v : Word) :
    debugRefusal v =
      if v.extractLsb' 8 24 = 0 then
        if v.getLsbD 7 = v.getLsbD 6 then
          if v.getLsbD 5 = v.getLsbD 4 then none
          else some .imlNeDml
        else some .immNeDmm
      else some .sbzTlbdbg := by
  simp only [debugRefusal, firstRefusal, bne_iff_ne, ne_eq, ite_not]

theorem debugRefusal_eq_none {v : Word} : debugRefusal v = none ↔ WfDbg v := by
  simp [debugRefusal, firstRefusal_eq_none, WfDbg]

/-- An allowed write completes exactly in a `Ready` state in which its check passes. -/
theorem completes_write_iff {i : Instr} {r : Fin 15} {s : State} (hrd : i.rd = rdOf r) (hu : i.alwaysUndefined = false)
    (hr : i.isRead = false) : Completes (exec i s) ↔ Ready s ∧ writeRefusal s r i = none := by
  constructor
  · rintro ⟨t, h⟩
    rw [exec_of_write s hu hr] at h
    obtain ⟨-, hp, -⟩ := prologue_eq_next.mp h
    rw [prologue_rdOf hrd hp] at h
    obtain ⟨passed, room, -⟩ := completeWrite_eq_next.mp h
    rw [writtenState_pc] at room
    exact ⟨⟨hp, room⟩, passed⟩
  · rintro ⟨ready, passed⟩
    exact ⟨_, exec_write_completes hrd hu hr ready passed⟩

theorem completes_mcrTlbdbg_iff {r : Fin 15} {s : State} :
    Completes (exec (.mcrTlbdbg (rdOf r)) s) ↔ Ready s ∧ WfDbg s.x[r] := by
  rw [completes_write_iff (r := r) rfl rfl rfl, writeRefusal, debugRefusal_eq_none]

/-! The pairs. -/

/-- A write of any other register leaves `TLBDBG` alone. -/
theorem writtenState_tlbdbg (s : State) (r : Fin 15) {i : Instr} (hi : i.register ≠ .tlbdbg) :
    (writtenState s r i).tlbdbg = s.tlbdbg := by
  cases i
  case mcrRmte | mcrWmte | mcrMtva | mcrMtpa | mcrMtattr =>
    cases h : s.launch.transfer <;>
      simp [writtenState, selectForRead, selectForWrite, writeMtva, writeMtpa, writeMtattr, writeWindow, h]
  case mcrTlbdbg => exact absurd rfl hi
  all_goals rfl

/-- All a completed form can do to `TLBDBG` is to store the low byte of a word that passes the checks. -/
theorem exec_tlbdbg {i : Instr} {s t : State} (h : exec i s = .next t) :
    t.tlbdbg = s.tlbdbg ∨ ∃ v : Word, WfDbg v ∧ t.tlbdbg = v.extractLsb' 0 8 := by
  obtain ⟨hrd, -, -, ⟨-, v, rfl⟩ | ⟨hr, passed, rfl⟩⟩ := exec_eq_next_cases h
  · exact .inl rfl
  · by_cases hi : i.register = .tlbdbg
    · cases i
      case mcrTlbdbg => exact .inr ⟨_, debugRefusal_eq_none.mp passed, rfl⟩
      case mrcTlbdbg => cases hr
      all_goals cases hi
    · exact .inl (writtenState_tlbdbg s _ hi)

theorem exec_debugPaired {i : Instr} {s t : State} (hs : DebugPaired s) (h : exec i s = .next t) : DebugPaired t := by
  obtain hkept | ⟨v, ⟨-, himm, himl⟩, hstored⟩ := exec_tlbdbg h
  · rwa [DebugPaired, hkept]
  · simpa [DebugPaired, hstored] using ⟨himm, himl⟩

/-- Settles O41: the gap leaves `TLBDBG` alone, and a form can store checked words only. -/
theorem debugControlPairsNeverSplit : Obligations.DebugControlPairsNeverSplit := by
  refine ⟨fun s t hs h => ?_, fun r s hsplit hc => ?_, rfl, rfl⟩
  · obtain ⟨i, -, hexec⟩ := step_eq_next.mp h
    have hgap : DebugPaired (envGap s) := hs
    exact exec_debugPaired hgap hexec
  · obtain ⟨-, -, himm, himl⟩ := completes_mcrTlbdbg_iff.mp hc
    exact hsplit.elim (· himm) (· himl)

/-! The read. -/

/-- `TLBDBG` reads as 24 bits of the draw above the eight control bits (rules R45, R48). -/
theorem merge_debugReadable (b : BitVec 8) (d : Word) : merge (debugReadable b) d = d.extractLsb' 8 24 ++ b := by
  have hsplit (w : Word) : w = w.extractLsb' 8 24 ++ w.extractLsb' 0 8 := by
    rw [BitVec.extractLsb'_append_extractLsb'_eq_extractLsb']
    · exact BitVec.extractLsb'_eq_self.symm
    · rfl
  have hbyte : (b.setWidth 32).extractLsb' 0 8 = b :=
    (BitVec.extractLsb'_setWidth_of_le (by decide)).trans BitVec.extractLsb'_eq_self
  rw [hsplit (merge (debugReadable b) d), debugReadable, extractLsb'_merge_free (by decide),
    extractLsb'_merge_stored (by decide), hbyte]

/-- Settles O34: a read of the word whose low part is `TLBDBG[7:0]`, which is zero at launch. -/
theorem readDebugControl : Obligations.ReadDebugControl := by
  intro r s
  obtain ⟨hword, huser⟩ := word_and_userUndefined_of_row (word := 0xEEFF0F11) (form := .mrcTlbdbg) (by simp [opcodeMap]) r s
  have answers (ready : Ready s) :
      ReadAnswers s r (exec (.mrcTlbdbg (rdOf r)) s) fun v => ∃ d : BitVec 24, v = d ++ s.tlbdbg := by
    obtain ⟨hpriv, room⟩ := ready
    rw [exec_mrcTlbdbg, prologue_rdOf rfl hpriv]
    exact readAnswers_completeRead room fun d => ⟨_, merge_debugReadable s.tlbdbg d⟩
  refine ⟨hword, huser, answers, fun ready hlaunch => (answers ready).imp ?_⟩
  rintro _ ⟨d, rfl⟩
  rw [BitVec.extractLsb'_append_eq_right]
  exact hlaunch

/-! The write. -/

/-- A failed check of the `TLBDBG` word refuses the write. -/
theorem exec_mcrTlbdbg_refused {r : Fin 15} {s : State} {q : Refusal} (hp : s.launch.priv = true)
    (hq : debugRefusal s.x[r] = some q) : exec (.mcrTlbdbg (rdOf r)) s = .refused q :=
  exec_write_refused (r := r) rfl rfl rfl hp hq

/-- Settles O35: the three checks of a `TLBDBG` word, then the write of its low byte. -/
theorem writeDebugControl : Obligations.WriteDebugControl := by
  intro r s
  obtain ⟨hword, huser⟩ := word_and_userUndefined_of_row (word := 0xEEEF0F11) (form := .mcrTlbdbg) (by simp [opcodeMap]) r s
  refine ⟨hword, huser, fun ⟨hp, room⟩ => ⟨fun hsbz => ?_, fun hsbz himm => ?_, fun hsbz himm himl => ?_,
    fun hsbz himm himl => ?_⟩⟩
  · exact exec_mcrTlbdbg_refused hp (by rw [debugRefusal_eq, if_neg hsbz])
  · exact exec_mcrTlbdbg_refused hp (by rw [debugRefusal_eq, if_pos hsbz, if_neg himm])
  · exact exec_mcrTlbdbg_refused hp (by rw [debugRefusal_eq, if_pos hsbz, if_pos himm, if_neg himl])
  · have passed : writeRefusal s r (.mcrTlbdbg (rdOf r)) = none := debugRefusal_eq_none.mpr ⟨hsbz, himm, himl⟩
    exact exec_write_completes (r := r) rfl rfl rfl ⟨hp, room⟩ passed

/-! The accepted values (rule R152). -/

/-- The pairs are equal exactly when the high nibble is one of four. -/
theorem wfDbg_iff_nibble {v : Word} :
    WfDbg v ↔ v.extractLsb' 8 24 = 0 ∧ v.extractLsb' 4 4 ∈ [0x0#4, 0x3#4, 0xC#4, 0xF#4] := by
  have hnibble : ∀ n : BitVec 4, n ∈ [0x0#4, 0x3#4, 0xC#4, 0xF#4] ↔
      n.getLsbD 3 = n.getLsbD 2 ∧ n.getLsbD 1 = n.getLsbD 0 := by decide
  rw [hnibble]
  simp [WfDbg]

/-- A word, field by field as `TLBDBG` is written: the zeros, the four bits of the pairs, the low nibble. -/
theorem word_eq_debugFields (w : Word) :
    w = w.extractLsb' 8 24 ++ w.extractLsb' 7 1 ++ w.extractLsb' 6 1 ++ w.extractLsb' 5 1 ++ w.extractLsb' 4 1 ++
      w.extractLsb' 0 4 := by
  iterate 5 rw [BitVec.extractLsb'_append_extractLsb'_eq_extractLsb']
  · exact BitVec.extractLsb'_eq_self.symm
  all_goals rfl

/-- The words that pass are those in which one bit stands for each pair. -/
theorem wfDbg_iff_fields {v : Word} :
    WfDbg v ↔ ∃ (m l : BitVec 1) (u : BitVec 4), v = (0#24 ++ m ++ m ++ l ++ l ++ u : BitVec 32) := by
  constructor
  · rintro ⟨hsbz, himm, himl⟩
    have bit {a b : Nat} (h : v.getLsbD a = v.getLsbD b) : v.extractLsb' a 1 = v.extractLsb' b 1 :=
      BitVec.eq_of_getLsbD_eq fun k hk => by simpa [Nat.lt_one_iff.mp hk] using h
    refine ⟨v.extractLsb' 6 1, v.extractLsb' 4 1, v.extractLsb' 0 4, ?_⟩
    conv_lhs => rw [word_eq_debugFields v, hsbz, bit himm, bit himl]
    rfl
  · have table : ∀ (m l : BitVec 1) (u : BitVec 4), WfDbg (0#24 ++ m ++ m ++ l ++ l ++ u) := by decide
    rintro ⟨m, l, u, hv⟩
    exact hv ▸ table m l u

/-- Settles O50: the check of the write, in its two other forms. -/
theorem acceptedDebugControlValues : Obligations.AcceptedDebugControlValues := by
  intro r s ready
  have hwf : Completes (exec (.mcrTlbdbg (rdOf r)) s) ↔ WfDbg s.x[r] := by
    rw [completes_mcrTlbdbg_iff, and_iff_right ready]
  exact ⟨hwf.trans wfDbg_iff_nibble, hwf.trans wfDbg_iff_fields⟩

end Sys2Proof.Machine
end

/-! The Undefined exception: what raises it (O12), and that a User-mode step therefore shows and changes nothing (O15). -/

section
namespace Sys2Proof.Machine

/-! The causes (rule R160). -/

/-- The forms marked Undefined by the directions their registers allow are the eight that rule R160 lists. -/
theorem alwaysUndefined_iff_mem (i : Instr) :
    i.alwaysUndefined = true ↔
      i ∈ [Instr.mrcRmte i.rd, .mrcWmte i.rd, .mcrDmva i.rd, .mcrImva i.rd, .mcrDmpa i.rd, .mcrImpa i.rd, .mcrDmattr i.rd,
        .mcrImattr i.rd] := by
  cases i
  case mrcRmte | mrcWmte | mcrDmva | mcrImva | mcrDmpa | mcrImpa | mcrDmattr | mcrImattr =>
    exact iff_of_true rfl (by simp [Instr.rd])
  all_goals exact iff_of_false Bool.false_ne_true (by simp)

/-- Reads and writes never fault by themselves, so a well-formed form faults through the prologue's mode check or because
its direction is never allowed. -/
theorem exec_eq_fault {i : Instr} {s : State} {f : Fault} (hrd : i.rd.val < 15) :
    exec i s = .fault f ↔
      f = .undefined (encode i) s.pc ∧ (s.launch.priv = false ∨ i.alwaysUndefined = true) := by
  cases hu : i.alwaysUndefined
  case true =>
    rw [exec_of_alwaysUndefined s hu, undefinedForm_eq hrd]
    simpa using eq_comm
  case false =>
    obtain ⟨body, shape, he⟩ := exec_shape i s
    have hb : ∀ r g, body r ≠ .fault g := by
      cases shape with
      | read => exact fun _ _ => completeRead_ne_fault
      | write => exact fun _ _ => completeWrite_ne_fault
      | undefined h => simp [hu] at h
    rw [he, prologue_eq_fault hb]
    simp [hrd, and_comm]

/-- Settles O12: the two causes of a fault, the second read as the list of the eight forms. -/
theorem causesOfTheUndefinedException : Obligations.CausesOfTheUndefinedException := by
  intro i s f hwf
  rw [← alwaysUndefined_iff_mem]
  exact exec_eq_fault (of_decide_eq_true hwf)

/-! User mode (rule R170). -/

/-- The fetch looks at the pc and the launch parameters only. -/
theorem fetchInstr_congr {s s' : State} (hpc : s'.pc = s.pc) (hlaunch : s'.launch = s.launch) :
    fetchInstr s' = fetchInstr s := by
  simp only [fetchInstr, fetch, hpc, hlaunch]

/-- In User mode the prologue ends every form, with an answer made of the form and the pc. -/
theorem exec_user_congr {i : Instr} {s s' : State} (hp : s.launch.priv = false) (hp' : s'.launch.priv = false)
    (hpc : s'.pc = s.pc) : exec i s' = exec i s := by
  obtain ⟨body, -, he⟩ := exec_shape i s
  obtain ⟨body', -, he'⟩ := exec_shape i s'
  rw [he, he']
  by_cases hrd : i.rd.val < 15
  · rw [prologue_user hrd hp, prologue_user hrd hp', hpc]
  · rw [prologue_rdIsPc hrd, prologue_rdIsPc hrd]

/-- No form completes in User mode, so no step does. -/
theorem step_user_ne_next {s t : State} (hp : s.launch.priv = false) : step s ≠ .next t := by
  intro h
  obtain ⟨i, -, hexec⟩ := step_eq_next.mp h
  obtain ⟨-, ⟨hpriv, -⟩, -⟩ := exec_eq_next_cases hexec
  rw [envGap_launch, hp] at hpriv
  cases hpriv

/-- Settles O15: both states fetch the same, and the form, run after either gap, sees no more than its mode and pc. -/
theorem userModeObservesNothing : Obligations.UserModeObservesNothing := by
  intro s s' hp hpc hlaunch
  have hexec (i : Instr) : exec i (envGap s') = exec i (envGap s) := exec_user_congr hp (hlaunch ▸ hp) hpc
  refine ⟨?_, fun t => step_user_ne_next hp⟩
  simp only [step, fetchInstr_congr hpc hlaunch, hexec]

end Sys2Proof.Machine
end

/-! The reset state and the launch states: the invariant and the pairs of `TLBDBG` (O43), the eight bits of `TLBDBG` and what
they allow the environment (O44). -/

section
namespace Sys2Proof.Machine

/-- All that R190 fixes of the reset state is what makes a launch state. -/
theorem launchable_reset : Launchable State.reset := rfl

/-- At launch every bit of `TLBDBG` is zero, so the bits of each pair are equal. -/
theorem Launchable.debugPaired {s : State} (h : Launchable s) : DebugPaired s := by
  simp [DebugPaired, h]

/-- Settles O43: the reset state is a launch state, its pc is 0 and its program is canonical. -/
theorem resetAndLaunchStatesMeetTheInvariants : Obligations.ResetAndLaunchStatesMeetTheInvariants := by
  have aligned : PcAligned State.reset := rfl
  exact ⟨⟨launchable_reset.debugPaired, aligned, reset_program_wf⟩, launchable_reset, fun _ => Launchable.debugPaired⟩

/-- In a launch state no switch of `TLBDBG` keeps the environment from a slot (rule R72). -/
theorem Launchable.envMayRewrite {s : State} (h : Launchable s) (slot : TlbSlot) : envMayRewrite s.tlbdbg slot = true := by
  rw [h]
  cases slot with
  | data | instruction | main => rfl

/-- Settles O44: `TLBDBG` is zero, so its bits read 0, and the environment may rewrite every slot as in any launch state. -/
theorem resetEnablesEveryMatchAndLoad : Obligations.ResetEnablesEveryMatchAndLoad :=
  ⟨launchable_reset, rfl, launchable_reset.envMayRewrite⟩

end Sys2Proof.Machine
end

/-! What every completed step keeps: it goes on at `pc + 4` (O39), under the same launch parameters (O40), and so within the
invariant (O42). -/

section
namespace Sys2Proof.Machine

/-- No write reaches a launch parameter. -/
@[simp] theorem writtenState_launch (s : State) (r : Fin 15) (i : Instr) : (writtenState s r i).launch = s.launch := by
  cases i
  case mcrRmte | mcrWmte | mcrMtva | mcrMtpa | mcrMtattr =>
    cases h : s.launch.transfer <;>
      simp [writtenState, selectForRead, selectForWrite, writeMtva, writeMtpa, writeMtattr, writeWindow, h]
  all_goals rfl

/-- A form that completes had room, and moves the pc by 4 under the same launch parameters. -/
theorem exec_pc_launch {i : Instr} {s t : State} (h : exec i s = .next t) :
    s.pc.toNat + 4 ≤ 0xFFFFFFFC ∧ t.pc = s.pc + 4 ∧ t.launch = s.launch := by
  obtain ⟨hrd, ⟨-, room⟩, -, ⟨-, v, rfl⟩ | ⟨-, -, rfl⟩⟩ := exec_eq_next_cases h
  · exact ⟨room, rfl, rfl⟩
  · exact ⟨room, rfl, writtenState_launch s _ i⟩

/-- A step that completes fetched from an aligned pc and ran a form after the gap. -/
theorem step_eq_next_cases {s t : State} (h : step s = .next t) : PcAligned s ∧ ∃ i, exec i (envGap s) = .next t := by
  obtain ⟨i, hi, hexec⟩ := step_eq_next.mp h
  refine ⟨?_, i, hexec⟩
  cases hw : fetch s with
  | error q => simp [fetchInstr, hw] at hi
  | ok w =>
    obtain ⟨-, aligned, -⟩ := fetch_eq_ok.mp hw
    exact aligned

/-- Settles O39: the pc moves by 4 in every form that completes, and its room keeps the sum from wrapping. -/
theorem everyCompletedFormContinuesAtPcPlusFour : Obligations.EveryCompletedFormContinuesAtPcPlusFour := by
  intro s t h
  obtain ⟨aligned, i, hexec⟩ := step_eq_next_cases h
  obtain ⟨room, hpc, -⟩ := exec_pc_launch hexec
  rw [envGap_pc] at room hpc
  have hsum : t.pc.toNat = s.pc.toNat + 4 := by bv_omega
  refine ⟨aligned, hsum, by omega, fun j u hu => ?_⟩
  obtain ⟨-, hupc, -⟩ := exec_pc_launch hu
  exact hupc

/-- Settles O40: neither the gap nor a form writes a launch parameter. -/
theorem launchParametersAreConstant : Obligations.LaunchParametersAreConstant := by
  intro s t h
  obtain ⟨-, i, hexec⟩ := step_eq_next_cases h
  obtain ⟨-, -, hlaunch⟩ := exec_pc_launch hexec
  exact hlaunch

/-- Settles O42: the pairs by O41, the pc's alignment by O39, the program's form by O40. -/
theorem everyStepKeepsTheInvariant : Obligations.EveryStepKeepsTheInvariant := by
  rintro s t ⟨paired, aligned, hwf⟩ h
  obtain ⟨keepsPairs, -, -⟩ := debugControlPairsNeverSplit
  obtain ⟨-, hpc, -, -⟩ := everyCompletedFormContinuesAtPcPlusFour s t h
  have alignedAfter : PcAligned t := by
    rw [PcAligned, hpc]
    omega
  exact ⟨keepsPairs s t paired h, alignedAfter, launchParametersAreConstant s t h ▸ hwf⟩

end Sys2Proof.Machine
end

/-! From the pc to the form that runs: the end of the run and the refusals of the fetch (O10), the words of no form (O8), the
prologue in its order (O6, O7, O9), and what a form that faults looks at (O14); with words decoded one by one (O5) and words
placed in the program (O11). -/

section
namespace Sys2Proof.Machine

/-! A step by what the fetch and the decoder answer. -/

theorem step_of_fetch_error {s : State} {q : Refusal} (h : fetch s = .error q) : step s = .refused q := by
  simp only [step, fetchInstr, h]

theorem step_of_decode_error {s : State} {w : Word} {e : DecodeError} (hw : fetch s = .ok w) (he : decode w = .error e) :
    step s = .refused (decodeRefusal e) := by
  simp only [step, fetchInstr, hw, he]

theorem step_of_decode_ok {s : State} {w : Word} {i : Instr} (hw : fetch s = .ok w) (hi : decode w = .ok i) :
    step s = exec i (envGap s) := by
  simp only [step, fetchInstr, hw, hi]

/-- Settles O10: the three refusals of the fetch, in its order. -/
theorem runEndsAtEndPc : Obligations.RunEndsAtEndPc := by
  intro s
  refine ⟨fun final => ?_, fun running misaligned => ?_, fun running aligned outside => ?_⟩
  · exact step_of_fetch_error (if_pos final)
  · exact step_of_fetch_error ((if_neg running).trans (if_pos misaligned))
  · refine step_of_fetch_error ((if_neg running).trans ((if_neg (not_not_intro aligned)).trans ?_))
    rw [outside]

/-- Settles O6: the word is fetched and decodes, and a gap changes the TLBs and the count of draws alone. -/
theorem stepRunsTheDecodedInstruction : Obligations.StepRunsTheDecodedInstruction := by
  intro s w i running aligned hw hi
  exact ⟨step_of_decode_ok (fetch_eq_ok.mpr ⟨running, aligned, hw⟩) hi, envGap_frame s⟩

/-! The words of no form. -/

/-- A word that agrees with a row is the word of that row's form with the word's own `Rd`. -/
theorem encode_of_word_of_row {w : Word} {row : Word × (Fin 16 → Instr)} (hrow : row ∈ opcodeMap)
    (hw : w &&& rowMask = row.1) : encode (row.2 (rdField w)) = w := by
  refine word_eq_of_row_of_rd ?_ ?_
  · rw [encode_of_row_and_rowMask hrow, hw]
  · rw [rdField_encode, rd_of_row row hrow]

/-- Two words agree in bits [27:0] exactly when the mask of those bits keeps the same of both. -/
theorem setWidth_eq_iff_and (v w : Word) : v.setWidth 28 = w.setWidth 28 ↔ v &&& 0x0FFFFFFF = w &&& 0x0FFFFFFF := by
  have hmask : ∀ k (hk : k < 32), (0x0FFFFFFF#32)[k] = decide (k < 28) := by decide
  constructor
  · intro h
    ext k hk
    by_cases hlow : k < 28
    · have hbit := congrArg (·.getLsbD k) h
      simpa [hmask, hlow, hk] using hbit
    · simp [hmask, hlow]
  · intro h
    ext k hk
    have hk32 : k < 32 := by omega
    have hbit := congrArg (·[k]) h
    simpa [hmask, hk, hk32] using hbit

/-- The mask of bits [27:0] keeps `Rd`. -/
theorem rdField_and_low (w : Word) : rdField (w &&& 0x0FFFFFFF) = rdField w :=
  congrArg BitVec.toFin (extractLsb'_and_of_allOnes (by decide))

/-- The decoder's test of rule R83: some row agrees with the word in bits [27:0] exactly when some form's word does. -/
theorem any_row_low_iff (w : Word) :
    opcodeMap.any (fun row => w &&& (rowMask &&& 0x0FFFFFFF) == row.1 &&& 0x0FFFFFFF) = true ↔
      ∃ i, (encode i).setWidth 28 = w.setWidth 28 := by
  have swap (v : Word) : v &&& (rowMask &&& 0x0FFFFFFF) = v &&& 0x0FFFFFFF &&& rowMask := by
    rw [BitVec.and_assoc, BitVec.and_comm rowMask]
  have hform {row : Word × (Fin 16 → Instr)} (hrow : row ∈ opcodeMap) (rd : Fin 16) :
      encode (row.2 rd) &&& 0x0FFFFFFF &&& rowMask = row.1 &&& 0x0FFFFFFF := by
    rw [← swap, ← BitVec.and_assoc, encode_of_row_and_rowMask hrow]
  simp only [List.any_eq_true, beq_iff_eq, setWidth_eq_iff_and, swap]
  constructor
  · rintro ⟨row, hrow, hw⟩
    refine ⟨row.2 (rdField w), word_eq_of_row_of_rd ?_ ?_⟩
    · rw [hform hrow, hw]
    · rw [rdField_and_low, rdField_and_low, rdField_encode, rd_of_row row hrow]
  · rintro ⟨i, hi⟩
    obtain ⟨row, hrow, hrowi⟩ := exists_row i
    refine ⟨row, hrow, ?_⟩
    rw [← hi, ← hrowi, hform hrow]

/-- A word of no form agrees with no row, and the decoder's second test names the refusal (rules R83, R88). -/
theorem decode_of_no_form {w : Word} (h : ∀ i, encode i ≠ w) :
    ((∃ i, (encode i).setWidth 28 = w.setWidth 28) → decode w = .error .condNotAlways) ∧
      ((∀ i, (encode i).setWidth 28 ≠ w.setWidth 28) → decode w = .error .unlisted) := by
  have hnone : opcodeMap.find? (fun row => w &&& rowMask == row.1) = none :=
    List.find?_eq_none.mpr fun row hrow hw => h _ (encode_of_word_of_row hrow (beq_iff_eq.mp hw))
  refine ⟨fun agrees => ?_, fun differs => ?_⟩
  · simp only [decode, hnone, (any_row_low_iff w).mpr agrees, if_true]
  · have hany := (any_row_low_iff w).not.mpr (not_exists.mpr differs)
    simp only [decode, hnone, if_neg hany]

/-- Settles O8: the step refuses by the name that the decoder gives. -/
theorem unlistedWordsAreRefusedNotFaulted : Obligations.UnlistedWordsAreRefusedNotFaulted := by
  intro w h
  obtain ⟨condNotAlways, unlisted⟩ := decode_of_no_form h
  exact ⟨fun agrees s hw => step_of_decode_error hw (condNotAlways agrees),
    fun differs s hw => step_of_decode_error hw (unlisted differs)⟩

/-- Settles O5: each word is compared with the 28 rows. -/
theorem sampleWordsDecode : Obligations.SampleWordsDecode := by
  unfold Obligations.SampleWordsDecode
  decide

/-! The prologue. -/

/-- Settles O9: every form is the prologue around some body, and the prologue refuses `Rd = 15` first. -/
theorem rdFifteenIsRefusedInEveryMode : Obligations.RdFifteenIsRefusedInEveryMode := by
  intro i s hrd
  obtain ⟨body, -, he⟩ := exec_shape i s
  rw [he, prologue_rdIsPc]
  simp [hrd]

/-- The word of a form decodes to that form unless its `Rd` is 15 (rule R20). -/
theorem decode_encode_of_rd_eq_fifteen {i : Instr} (h : i.rd = 15) : decode (encode i) = .error .rdIsPc := by
  obtain ⟨row, hrow, hi⟩ := exists_row i
  rw [decode_of_row hrow (hi ▸ encode_of_row_and_rowMask hrow i.rd), rdField_encode, if_pos h]

/-- Settles O7: the fetch by O10, the row and `Rd` by the decoder (O1, O2), the mode and the direction by the causes of a
fault. -/
theorem prologueRunsInItsOrder : Obligations.PrologueRunsInItsOrder := by
  intro s running
  obtain ⟨-, misalignedRefused, outsideRefused⟩ := runEndsAtEndPc s
  refine ⟨fun hpc => ?_, fun aligned w hword => ?_⟩
  · by_cases aligned : PcAligned s
    · exact ⟨_, outsideRefused running aligned (hpc.resolve_left (not_not_intro aligned))⟩
    · exact ⟨_, misalignedRefused running aligned⟩
  · have hw : fetch s = .ok w := fetch_eq_ok.mpr ⟨running, aligned, hword⟩
    refine ⟨fun noForm => ?_, ?_⟩
    · cases hd : decode w with
      | error e => exact ⟨_, step_of_decode_error hw hd⟩
      | ok i =>
        obtain ⟨-, hi⟩ := decodedWordEncodesToItself w i hd
        exact absurd hi (noForm i)
    · rintro i rfl
      have runs (hrd : i.rd ≠ 15) : step s = exec i (envGap s) :=
        step_of_decode_ok hw (encodedInstructionDecodesToItself i (wellFormed_iff.mpr hrd))
      have faults (hrd : i.rd ≠ 15) (h : s.launch.priv = false ∨ i.alwaysUndefined = true) :
          step s = .fault (.undefined (encode i) s.pc) :=
        (runs hrd).trans ((exec_eq_fault (of_decide_eq_true (wellFormed_iff.mpr hrd))).mpr ⟨rfl, h⟩)
      exact ⟨fun hrd => step_of_decode_error hw (decode_encode_of_rd_eq_fifteen hrd),
        fun hrd user => faults hrd (.inl user), fun hrd _ hu => faults hrd (.inr hu), fun hrd _ _ => runs hrd⟩

/-- Settles O14: a fault and its word depend on the form, the mode and the pc alone. -/
theorem undefinedIgnoresEverythingButModeAndPc : Obligations.UndefinedIgnoresEverythingButModeAndPc := by
  intro i s s' f h hpc hpriv
  have hrd : i.rd.val < 15 := by
    by_contra hpcRd
    obtain ⟨body, -, he⟩ := exec_shape i s
    rw [he, prologue_rdIsPc hpcRd] at h
    cases h
  rw [exec_eq_fault hrd] at h ⊢
  rwa [hpc, hpriv]

/-! Placing a word (rule R62). -/

/-- Settles O11: the placed word stands at the pc, the end of the run has moved away from there, and `put` keeps the rest. -/
theorem placedWordIsFetchedNext : Obligations.PlacedWordIsFetchedNext := by
  intro s w aligned hwf
  have hword : BitVec.ofNat 32 (w.toNat % 2 ^ 32) = w := by
    rw [Nat.mod_eq_of_lt w.isLt, BitVec.ofNat_toNat, BitVec.setWidth_eq]
  rw [State.withFetchWord, hword]
  refine ⟨fetch_eq_ok.mpr ⟨?_, aligned, ?_⟩, Program.put_wf hwf w aligned s.pc.isLt, fun a ha => ?_⟩
  · change s.pc ≠ if s.launch.endPc = s.pc then s.pc + 4 else s.launch.endPc
    split
    · bv_omega
    · exact Ne.symm ‹_›
  · exact (Program.word?_put _ _ _ _).trans (if_pos rfl)
  · exact (Program.word?_put _ _ _ _).trans (if_neg ha)

end Sys2Proof.Machine
end

/-! The write checks and the frames: which privileged writes complete (O36), the selectors that are accepted (O51), and what
each form may write (O37). -/

section
namespace Sys2Proof.Machine

/-! The checks that the predicates of rule R49 decide. -/

theorem indexRefusal_eq_none {q : Refusal} {v : Word} : indexRefusal q v = none ↔ WfIdx v := by
  simp [indexRefusal, firstRefusal_eq_none, WfIdx]

/-- The commit checks pass exactly when `wf_commit` holds of the holding registers. -/
theorem commitRefusal_eq_none {s : State} : commitRefusal s.launch ⟨s.mtva, s.mtpa, s.mtattr⟩ = none ↔ WfCommit s := by
  rw [commitRefusal_eq, WfCommit]
  split_ifs with hpa hattr hvpn hglobal
  · exact iff_of_true rfl ⟨hpa, hattr, hvpn, hglobal⟩
  · exact iff_of_false not_false fun ⟨_, _, _, h⟩ => hglobal h
  · exact iff_of_false not_false fun ⟨_, _, h, _⟩ => hvpn h
  · exact iff_of_false not_false fun ⟨_, h, _, _⟩ => hattr h
  · exact iff_of_false not_false fun ⟨h, _, _, _⟩ => hpa h

/-- A commit is checked for its selector and for the holding registers. -/
theorem writeRefusal_mcrWmte_eq_none {s : State} {r : Fin 15} (ht : TransfersOnEntryWrite s) (rd : Fin 16) :
    writeRefusal s r (.mcrWmte rd) = none ↔ WfSel s.x[r] ∧ WfCommit s := by
  rw [writeRefusal, Option.or_eq_none_iff, selectorRefusal_eq_none, selectForWriteRefusal_onEntryWrite ht,
    commitRefusal_eq_none]

/-- Settles O36: with room in a privileged mode, a write completes exactly when its check passes. -/
theorem writesCompleteExactlyWhenWellFormed : Obligations.WritesCompleteExactlyWhenWellFormed := by
  intro r s ready ht
  have completes {i : Instr} (hrd : i.rd = rdOf r) (hu : i.alwaysUndefined = false) (hr : i.isRead = false) :
      Completes (exec i s) ↔ writeRefusal s r i = none :=
    (completes_write_iff hrd hu hr).trans (and_iff_right ready)
  exact ⟨(completes rfl rfl rfl).trans indexRefusal_eq_none, (completes rfl rfl rfl).trans indexRefusal_eq_none,
    (completes rfl rfl rfl).trans selectorRefusal_eq_none, (completes rfl rfl rfl).trans (writeRefusal_mcrWmte_eq_none ht _),
    (completes rfl rfl rfl).mpr rfl, (completes rfl rfl rfl).trans paRefusal_eq_none,
    (completes rfl rfl rfl).trans attrRefusal_eq_none, (completes rfl rfl rfl).trans debugRefusal_eq_none⟩

/-! The 72 selectors (rule R114). -/

/-- The predicate of a selector leaves bit 31 and below it six bits, or with bit 31 set three. -/
theorem wfSel_iff_legal {v : Word} :
    WfSel v ↔
      (∃ (way : Fin 2) (set : Fin 32), v.toNat = 32 * way.val + set.val) ∨ ∃ k : Fin 8, v.toNat = 0x80000000 + k.val := by
  constructor
  · rintro ⟨hsbz, hlockable⟩
    have hmiddle : v.toNat / 64 % 2 ^ 25 = 0 := by
      simpa [Nat.shiftRight_eq_div_pow] using congrArg BitVec.toNat hsbz
    have hmsb : v.msb = v.getLsbD 31 := v.msb_eq_getLsbD_last
    cases htop : v.getLsbD 31 with
    | true =>
      have hhigh : 2 ^ 31 ≤ v.toNat := BitVec.le_toNat_of_msb_true (hmsb.trans htop)
      have hlow : v.toNat / 8 % 8 = 0 := by
        simpa [Nat.shiftRight_eq_div_pow] using congrArg BitVec.toNat (hlockable.resolve_left (by simp [htop]))
      exact .inr ⟨⟨v.toNat % 8, by omega⟩, by simp only; omega⟩
    | false =>
      have hhigh : v.toNat < 2 ^ 31 := BitVec.toNat_lt_of_msb_false (hmsb.trans htop)
      exact .inl ⟨⟨v.toNat / 32, by omega⟩, ⟨v.toNat % 32, by omega⟩, by simp only; omega⟩
  · rintro (⟨way, set, hv⟩ | ⟨k, hv⟩)
    · exact (legalSelector_setAssoc hv).left
    · exact (legalSelector_lockable hv).left

/-- A value that is no selector fails a check of the selector. -/
theorem exists_selectorRefusal {v : Word} (sbz sbzLockable : Refusal) (h : ¬ WfSel v) :
    ∃ q, selectorRefusal sbz sbzLockable v = some q :=
  Option.ne_none_iff_exists'.mp (selectorRefusal_eq_none.not.mpr h)

/-- Settles O51: the selector checks are the same under both transfer models, and what passes them is one of the 72. -/
theorem legalSelectorsAreTheSeventyTwo : Obligations.LegalSelectorsAreTheSeventyTwo := by
  refine ⟨fun r s ready => ?_, fun v way set hv => (legalSelector_setAssoc hv).right,
    fun v k hv => (legalSelector_lockable hv).right⟩
  dsimp only
  rw [← wfSel_iff_legal]
  refine ⟨?_, fun h => ?_, fun h => ?_⟩
  · exact (completes_write_iff (r := r) rfl rfl rfl).trans ((and_iff_right ready).trans selectorRefusal_eq_none)
  · obtain ⟨q, hq⟩ := exists_selectorRefusal .sbzRmte .sbzRmteLk h
    exact ⟨q, exec_write_refused (r := r) rfl rfl rfl ready.left hq⟩
  · obtain ⟨q, hq⟩ := exists_selectorRefusal .sbzWmte .sbzWmteLk h
    exact ⟨q, exec_write_refused (r := r) rfl rfl rfl ready.left (by rw [writeRefusal, hq, Option.some_or])⟩

/-! The frames (rule R66). -/

/-- Settles O37: a completed form is an allowed read or one of the eight allowed writes. -/
theorem eachFormWritesOnlyItsOwnState : Obligations.EachFormWritesOnlyItsOwnState := by
  intro i s t ht h
  obtain ⟨hrd, -, hu, ⟨hread, v, rfl⟩ | ⟨hwrite, -, rfl⟩⟩ := exec_eq_next_cases h
  · exact ⟨fun _ => ⟨⟨i.rd.val, hrd⟩, _, _, rfl, rfl⟩, fun hr => absurd (hread.symm.trans hr) Bool.noConfusion⟩
  · refine ⟨fun hr => absurd (hwrite.symm.trans hr) Bool.noConfusion, fun _ => ?_⟩
    cases i
    case mcrDmidx | mcrImidx | mcrTlbdbg => exact ⟨_, rfl⟩
    case mcrRmte => exact ⟨_, _, _, (congrArg (State.setPc · _) (selectForRead_onEntryWrite ht _)).trans rfl⟩
    case mcrWmte => exact ⟨_, rfl, congrArg (State.setPc · _) (selectForWrite_onEntryWrite ht _)⟩
    case mcrMtva => exact ⟨_, (congrArg (State.setPc · _) (writeMtva_onEntryWrite ht _)).trans rfl⟩
    case mcrMtpa => exact ⟨_, (congrArg (State.setPc · _) (writeMtpa_onEntryWrite ht _)).trans rfl⟩
    case mcrMtattr => exact ⟨_, (congrArg (State.setPc · _) (writeMtattr_onEntryWrite ht _)).trans rfl⟩
    case mcrDmva | mcrImva | mcrDmpa | mcrImpa | mcrDmattr | mcrImattr => cases hu
    all_goals cases hwrite

end Sys2Proof.Machine
end

/-! The TLB environment: what one of its steps replaces (O48), which bits of `TLBDBG` gate it and which gate nothing (O49), and
what it leaves alone while loads are disabled (O46, O47). -/

section
namespace Sys2Proof.Machine

/-! One step of the environment. -/

theorem envStep_of_enabled {dbg : BitVec 8} {m : EnvMove} (t : Tlbs) (h : envMayRewrite dbg m.slot = true) :
    envStep dbg t m = t.setEntry m.slot m.entry :=
  if_pos h

theorem envStep_of_disabled {dbg : BitVec 8} {m : EnvMove} (t : Tlbs) (h : envMayRewrite dbg m.slot = false) :
    envStep dbg t m = t :=
  if_neg (Bool.eq_false_iff.mp h)

/-- A step of the environment leaves every slot but its own alone. -/
theorem envStep_entry_of_ne {dbg : BitVec 8} {t : Tlbs} {m : EnvMove} {other : TlbSlot} (h : other ≠ m.slot) :
    (envStep dbg t m).entry other = t.entry other := by
  cases henabled : envMayRewrite dbg m.slot with
  | true => rw [envStep_of_enabled t henabled, Tlbs.entry_setEntry, if_neg h.symm]
  | false => rw [envStep_of_disabled t henabled]

/-- Settles O48: the switches of the statement are those that `envMayRewrite` reads. -/
theorem environmentRewritesOnlyEnabledTlbs : Obligations.EnvironmentRewritesOnlyEnabledTlbs := by
  refine ⟨?_, fun s => ⟨_, _, rfl⟩⟩
  intro dbg t e slot other enabled
  have henabled : enabled ↔ envMayRewrite dbg slot = true := by
    cases slot <;> simp [enabled, envMayRewrite]
  rw [henabled]
  refine ⟨fun h => ?_, envStep_entry_of_ne (m := ⟨slot, e⟩),
    fun h => envStep_of_disabled t (Bool.eq_false_of_not_eq_true h)⟩
  rw [envStep_of_enabled t h, Tlbs.entry_setEntry, if_pos rfl]

/-! The match bits (rule R76). -/

/-- The environment looks at bits 0, 1, 4 and 5 of `TLBDBG` only. -/
theorem envMayRewrite_congr {d d' : BitVec 8} (h : d &&& 0b00110011 = d' &&& 0b00110011) (slot : TlbSlot) :
    envMayRewrite d slot = envMayRewrite d' slot := by
  have bit (k : Nat) (hk : (0b00110011 : BitVec 8).getLsbD k = true) : d.getLsbD k = d'.getLsbD k := by
    simpa only [BitVec.getLsbD_and, hk, Bool.and_true] using congrArg (·.getLsbD k) h
  cases slot with
  | data i => rw [envMayRewrite, envMayRewrite, bit 0 rfl]
  | instruction i => rw [envMayRewrite, envMayRewrite, bit 1 rfl]
  | main m => rw [envMayRewrite, envMayRewrite, bit 4 rfl, bit 5 rfl]

/-- So a gap does the same under any two values that agree there. -/
theorem envGap_setTlbdbg {s : State} {d : BitVec 8} (h : d &&& 0b00110011 = s.tlbdbg &&& 0b00110011) :
    envGap (s.setTlbdbg d) = (envGap s).setTlbdbg d := by
  have hstep : envStep d = envStep s.tlbdbg := by
    funext t m
    rw [envStep, envStep, envMayRewrite_congr h]
  rw [envGap, State.setTlbdbg_tlbdbg, hstep]
  rfl

theorem keepsShared_setTlbdbg (d : BitVec 8) : KeepsShared (State.setTlbdbg · d) :=
  ⟨fun _ => rfl, fun _ => rfl, fun _ => rfl, fun _ _ _ => rfl, fun _ _ => rfl, fun _ _ => rfl⟩

/-- An allowed write commutes with a change of the state if its check does not see the change and its written state does
not undo it. -/
theorem KeepsShared.exec_comm_of_write {f : State → State} (hf : KeepsShared f) {i : Instr} {s : State}
    (hu : i.alwaysUndefined = false) (hr : i.isRead = false) (hcheck : ∀ r, writeRefusal (f s) r i = writeRefusal s r i)
    (hwritten : ∀ r, writtenState (f s) r i = f (writtenState s r i)) : exec i (f s) = mapNext f (exec i s) := by
  simp only [exec_of_write _ hu hr, hcheck, hwritten]
  exact hf.prologue_completeWrite_comm i s (writeRefusal s · i) (writtenState s · i)

/-- No check of a write looks at `TLBDBG`. -/
theorem writeRefusal_setTlbdbg (s : State) (d : BitVec 8) (r : Fin 15) (i : Instr) :
    writeRefusal (s.setTlbdbg d) r i = writeRefusal s r i := by
  cases i <;> rfl

/-- A write of another register does the same to the state whatever `TLBDBG` holds. -/
theorem writtenState_setTlbdbg (s : State) (d : BitVec 8) (r : Fin 15) {i : Instr} (hi : i.register ≠ .tlbdbg) :
    writtenState (s.setTlbdbg d) r i = (writtenState s r i).setTlbdbg d := by
  cases i
  case mcrRmte | mcrWmte | mcrMtva | mcrMtpa | mcrMtattr =>
    simp only [writtenState, selectForRead, selectForWrite, writeMtva, writeMtpa, writeMtattr, State.setTlbdbg_launch]
    cases s.launch.transfer <;> rfl
  case mcrTlbdbg => exact absurd rfl hi
  all_goals rfl

/-- Every form but the two of `TLBDBG` commutes with a change of `TLBDBG`. -/
theorem exec_setTlbdbg {i : Instr} (s : State) (d : BitVec 8) (hi : i.register ≠ .tlbdbg) :
    exec i (s.setTlbdbg d) = mapNext (State.setTlbdbg · d) (exec i s) := by
  have hf := keepsShared_setTlbdbg d
  cases hu : i.alwaysUndefined
  case true => exact hf.exec_comm_of_alwaysUndefined s hu
  case false =>
    cases hr : i.isRead
    case false =>
      exact hf.exec_comm_of_write hu hr (fun r => writeRefusal_setTlbdbg s d r i) fun r => writtenState_setTlbdbg s d r hi
    case true =>
      cases i
      case mrcDmidx | mrcImidx | mrcDmva | mrcImva | mrcMtva | mrcDmpa | mrcImpa | mrcMtpa | mrcDmattr | mrcImattr
        | mrcMtattr =>
        exact hf.prologue_completeRead_comm _ s _
      case mrcRmte | mrcWmte => cases hu
      case mrcTlbdbg => exact absurd rfl hi
      all_goals cases hr

/-- Settles O49: the gap reads none of the four match bits, and no form but the two of `TLBDBG` reads any bit of it. -/
theorem matchBitsGateNothing : Obligations.MatchBitsGateNothing :=
  ⟨fun _ _ => envGap_setTlbdbg, fun _ => exec_setTlbdbg⟩

/-! Frozen TLBs (rules R74, R75). -/

/-- Settles O46: with IUL set the gap may not change the Instruction MicroTLB, and no form can. -/
theorem instructionMicroTlbIsFrozenWhileIulIsSet : Obligations.InstructionMicroTlbIsFrozenWhileIulIsSet := by
  intro s t hiul h
  obtain ⟨i, -, hexec⟩ := step_eq_next.mp h
  have hfrozen (k : Fin 11) : envMayRewrite s.tlbdbg (.instruction k) = false := by rw [envMayRewrite, hiul, Bool.not_true]
  calc t.tlbs.instruction = (envGap s).tlbs.instruction := (exec_tlbs hexec).instruction
    _ = s.tlbs.instruction := Vector.ext fun k hk => envRun_entry_frozen (hfrozen ⟨k, hk⟩) (Config.envMoves s.draws) s.tlbs

/-- Under decision D7 `WMTE` is the one register whose write reaches the TLBs. -/
theorem writtenState_tlbs_of_ne_wmte {s : State} (ht : TransfersOnEntryWrite s) (r : Fin 15) {i : Instr}
    (hi : i.register ≠ .wmte) : (writtenState s r i).tlbs = s.tlbs := by
  cases i
  case mcrWmte => exact absurd rfl hi
  all_goals simp [writtenState, selectForRead, writeMtva, writeMtpa, writeMtattr, ht]

/-- So a completed form that changes the TLBs is a write of `WMTE`. -/
theorem exec_tlbs_ne {i : Instr} {s t : State} (ht : TransfersOnEntryWrite s) (h : exec i s = .next t)
    (hne : t.tlbs ≠ s.tlbs) : i = .mcrWmte i.rd := by
  obtain ⟨hrd, -, hu, ⟨-, v, rfl⟩ | ⟨hwrite, -, rfl⟩⟩ := exec_eq_next_cases h
  · exact absurd rfl hne
  · have hi : i.register = .wmte := by
      by_contra hi
      exact hne (writtenState_tlbs_of_ne_wmte ht _ hi)
    cases i
    case mcrWmte => rfl
    case mrcWmte => cases hwrite
    all_goals cases hi

/-- Settles O47: the gap leaves a frozen main TLB alone, so what the step changed the form changed. -/
theorem onlyWmteChangesAFrozenMainTlb : Obligations.OnlyWmteChangesAFrozenMainTlb := by
  intro s himl hdml
  refine ⟨envGap_mainEntry_frozen himl hdml, fun ht t slot h hne => ?_⟩
  obtain ⟨i, hi, hexec⟩ := step_eq_next.mp h
  have htgap : TransfersOnEntryWrite (envGap s) := ht
  have hchanged : t.tlbs ≠ (envGap s).tlbs := fun heq => hne (heq ▸ envGap_mainEntry_frozen himl hdml slot)
  exact ⟨i.rd, exec_tlbs_ne htgap hexec hchanged ▸ hi⟩

end Sys2Proof.Machine
end

/-! The tables of sizes: the bits a region does not translate (O52), and with them cleared the physical base address (O53). -/

section
namespace Sys2Proof.Machine

/-- The untranslated bits lie from bit 10 up to the region's size, and to the top of the word for a reserved size (rule R38). -/
theorem getLsbD_untrans : ∀ (sz : BitVec 4), ∀ n < 32,
    (untrans sz).getLsbD n = decide (10 ≤ n ∧ n < (regionSize? sz).elim 32 RegionSize.log2) := by decide

/-- No region is larger than the address space. -/
theorem RegionSize.log2_lt (z : RegionSize) : z.log2 < 32 := by
  cases z <;> decide

/-- An SZ that names no region is none of the six of rule R33. -/
theorem regionSize_eq_none_iff : ∀ sz : BitVec 4,
    regionSize? sz = none ↔ sz ∉ [0b1111#4, 0b1110#4, 0b1100#4, 0b1000#4, 0b0000#4, 0b0001#4] := by decide

/-- Settles O52, bit by bit below bit 32. -/
theorem untranslatedBitsLieBelowTheRegionSize : Obligations.UntranslatedBitsLieBelowTheRegionSize := by
  intro sz n
  have hbit (k : Nat) (hk : k ≤ 32) (hsz : (regionSize? sz).elim 32 RegionSize.log2 = k) :
      (untrans sz).getLsbD n = true ↔ 10 ≤ n ∧ n < k := by
    by_cases hn : n < 32
    · rw [getLsbD_untrans sz n hn, hsz, decide_eq_true_iff]
    · rw [BitVec.getLsbD_of_ge _ _ (Nat.le_of_not_lt hn)]
      exact iff_of_false Bool.false_ne_true (by omega)
  refine ⟨fun z hz => hbit z.log2 z.log2_lt.le (by rw [hz]; rfl), fun hz => hbit 32 le_rfl (by rw [hz]; rfl),
    rfl, rfl, rfl, rfl, rfl, rfl, fun hsz => ?_⟩
  rw [untrans, (regionSize_eq_none_iff sz).mpr hsz]

/-- The address bits above the region's size are those of bits [31:10] that the region translates (rules R38, R136). -/
theorem not_untrans_eq {sz : BitVec 4} {z : RegionSize} (h : regionSize? sz = some z) :
    (0xFFFFFC00 : Word) &&& ~~~untrans sz = BitVec.allOnes 32 <<< z.log2 := by
  have table : ∀ sz : BitVec 4, ∀ z ∈ regionSize? sz, (0xFFFFFC00 : Word) &&& ~~~untrans sz = BitVec.allOnes 32 <<< z.log2 := by
    decide
  exact table sz z h

/-- Settles O53: to keep the bits above the size is to shift the others out and back in as zeros. -/
theorem physicalBaseIsTheRegionBoundary : Obligations.PhysicalBaseIsTheRegionBoundary := by
  intro w z hz
  have hbase : physicalBase w = w >>> z.log2 <<< z.log2 := by
    rw [physicalBase, BitVec.and_assoc, not_untrans_eq hz, BitVec.shiftLeft_ushiftRight]
  rw [hbase, BitVec.toNat_shiftLeft, BitVec.toNat_ushiftRight, Nat.shiftLeft_eq, Nat.shiftRight_eq_div_pow]
  exact Nat.mod_eq_of_lt ((Nat.div_mul_le_self _ _).trans_lt w.isLt)

end Sys2Proof.Machine
end

/-! The window reading of decision D7: the latched selectors (O56), and the reads (O57) and writes (O58) of the entries they
name. -/

section
namespace Sys2Proof.Machine

/-! The transfers under the window reading. -/

theorem mainWindow_window {s : State} (hw : TransfersByWindow s) : mainWindow s = s.tlbs.mainEntry s.rmteSel := by
  rw [mainWindow, hw]

/-- Settles O56: a selector that passes its two checks is latched, and under this reading `WMTE` has no other check. -/
theorem windowSelectorsLatch : Obligations.WindowSelectorsLatch := by
  intro r s ready hw hsel
  have rmtePassed : writeRefusal s r (.mcrRmte (rdOf r)) = none := selectorRefusal_eq_none.mpr hsel
  have wmtePassed : writeRefusal s r (.mcrWmte (rdOf r)) = none := by
    rw [writeRefusal, selectorRefusal_eq_none.mpr hsel, selectForWriteRefusal, hw, Option.none_or]
  rw [exec_write_completes (r := r) rfl rfl rfl ready rmtePassed, exec_write_completes (r := r) rfl rfl rfl ready wmtePassed,
    writtenState, writtenState, selectForRead, selectForWrite, hw]
  exact ⟨rfl, rfl⟩

/-- Settles O57: the three reads show one entry, each under its own mask. -/
theorem windowReadsShowTheSelectedEntry : Obligations.WindowReadsShowTheSelectedEntry := by
  intro r s ⟨hpriv, room⟩ hw
  rw [exec_mrcMtva, exec_mrcMtpa, exec_mrcMtattr, prologue_rdOf rfl hpriv, prologue_rdOf rfl hpriv, prologue_rdOf rfl hpriv,
    mainWindow_window hw]
  exact ⟨readAnswers_merged room (vaReadable _), readAnswers_merged room (paReadable _),
    readAnswers_merged room (mainAttrReadable _)⟩

/-! The window writes. -/

/-- An accepted window write replaces the entry `WMTE` selects, and nothing else but the pc changes. -/
theorem exec_windowWrite {i : Instr} {r : Fin 15} {s : State} {f : TlbEntry → TlbEntry} (hrd : i.rd = rdOf r)
    (hu : i.alwaysUndefined = false) (hr : i.isRead = false) (ready : Ready s) (passed : writeRefusal s r i = none)
    (hf : writtenState s r i = writeWindow s f) :
    ∃ tlbs : Tlbs, exec i s = .next { s with tlbs := tlbs, pc := s.pc + 4 } ∧
      ∀ slot, tlbs.entry slot = if slot = .main s.wmteSel then f (s.tlbs.mainEntry s.wmteSel) else s.tlbs.entry slot := by
  refine ⟨s.tlbs.setMain s.wmteSel (f (s.tlbs.mainEntry s.wmteSel)), ?_, fun slot => ?_⟩
  · rw [exec_write_completes hrd hu hr ready passed, hf]
    rfl
  · exact (Tlbs.entry_setEntry s.tlbs (.main s.wmteSel) slot _).trans (if_congr eq_comm rfl rfl)

/-- Settles O58: each write replaces one word of the selected entry, and completes exactly when its check passes. -/
theorem windowWritesGoToTheSelectedEntry : Obligations.WindowWritesGoToTheSelectedEntry := by
  intro r s ready hw
  have hmtva (rd : Fin 16) : writtenState s r (.mcrMtva rd) = writeWindow s fun e => { e with va := s.x[r] } := by
    rw [writtenState, writeMtva, hw]
  have hmtpa (rd : Fin 16) : writtenState s r (.mcrMtpa rd) = writeWindow s fun e => { e with pa := s.x[r] } := by
    rw [writtenState, writeMtpa, hw]
  have hmtattr (rd : Fin 16) : writtenState s r (.mcrMtattr rd) = writeWindow s fun e => { e with attr := s.x[r] } := by
    rw [writtenState, writeMtattr, hw]
  refine ⟨exec_windowWrite rfl rfl rfl ready rfl (hmtva _),
    fun hpa => exec_windowWrite (i := .mcrMtpa (rdOf r)) rfl rfl rfl ready (paRefusal_eq_none.mpr hpa) (hmtpa _),
    fun hattr => exec_windowWrite (i := .mcrMtattr (rdOf r)) rfl rfl rfl ready (attrRefusal_eq_none.mpr hattr) (hmtattr _),
    fun hpa h => ?_, fun hattr h => ?_⟩
  · obtain ⟨-, passed⟩ := (completes_write_iff (r := r) rfl rfl rfl).mp h
    exact hpa (paRefusal_eq_none.mp passed)
  · obtain ⟨-, passed⟩ := (completes_write_iff (r := r) rfl rfl rfl).mp h
    exact hattr (attrRefusal_eq_none.mp passed)

end Sys2Proof.Machine
end

/-! An index over 10: it is stored, and the views through it read no entry (O59). -/

section
namespace Sys2Proof.Machine

/-- With an index over 10 a view has no stored word (rule R26). -/
theorem microReadable_of_over_ten {entries : Vector TlbEntry 11} {index : BitVec 4} {view : TlbEntry → Readable}
    (h : 10 < index.toNat) : microReadable entries index view = ⟨0, 0xFFFFFFFF⟩ :=
  dif_neg (Nat.not_lt.mpr h)

theorem keepsShared_setTlbs (other : Tlbs) : KeepsShared (State.setTlbs · other) :=
  ⟨fun _ => rfl, fun _ => rfl, fun _ => rfl, fun _ _ _ => rfl, fun _ _ => rfl, fun _ _ => rfl⟩

/-- A MicroTLB view read through an index over 10 answers some word, the same whatever the TLBs hold. -/
theorem exec_view_over_ten {i : Instr} {r : Fin 15} {s : State} {other : Tlbs} {entries entries' : Vector TlbEntry 11}
    {index : BitVec 4} {view : TlbEntry → Readable} (hrd : i.rd = rdOf r) (ready : Ready s) (hover : 10 < index.toNat)
    (hs : exec i s = prologue i s fun r => completeRead r (microReadable entries index view) s)
    (hother : exec i (s.setTlbs other) =
      prologue i (s.setTlbs other) fun r => completeRead r (microReadable entries' index view) (s.setTlbs other)) :
    ReadAnswers s r (exec i s) (fun _ => True) ∧
      exec i (s.setTlbs other) = mapNext (State.setTlbs · other) (exec i s) := by
  obtain ⟨hpriv, room⟩ := ready
  rw [microReadable_of_over_ten hover] at hs hother
  constructor
  · rw [hs, prologue_rdOf hrd hpriv]
    exact readAnswers_completeRead room fun _ => trivial
  · rw [hother, hs]
    exact (keepsShared_setTlbs other).prologue_completeRead_comm i s _

/-- A four-bit value passes the check of an index register and is what the register stores. -/
theorem wfIdx_setWidth : ∀ k : BitVec 4, WfIdx (k.setWidth 32) ∧ (k.setWidth 32 : Word).extractLsb' 0 4 = k := by decide

/-- Settles O59: the index writes check for four bits only, and with no stored word a view shows the draw alone. -/
theorem indexOverTenAccessesNoEntry : Obligations.IndexOverTenAccessesNoEntry := by
  intro r s other ready
  refine ⟨fun k _ hk => ?_, fun hover => ?_, fun hover => ?_⟩
  · obtain ⟨hwf, hstored⟩ := wfIdx_setWidth k
    rw [← hk] at hwf hstored
    rw [exec_write_completes (i := .mcrDmidx (rdOf r)) (r := r) rfl rfl rfl ready (indexRefusal_eq_none.mpr hwf),
      exec_write_completes (i := .mcrImidx (rdOf r)) (r := r) rfl rfl rfl ready (indexRefusal_eq_none.mpr hwf),
      writtenState, writtenState, hstored]
    exact ⟨rfl, rfl⟩
  · simp only [List.forall_mem_cons]
    exact ⟨exec_view_over_ten rfl ready hover (exec_mrcDmva _ _) (exec_mrcDmva _ _),
      exec_view_over_ten rfl ready hover (exec_mrcDmpa _ _) (exec_mrcDmpa _ _),
      exec_view_over_ten rfl ready hover (exec_mrcDmattr _ _) (exec_mrcDmattr _ _), List.forall_mem_nil _⟩
  · simp only [List.forall_mem_cons]
    exact ⟨exec_view_over_ten rfl ready hover (exec_mrcImva _ _) (exec_mrcImva _ _),
      exec_view_over_ten rfl ready hover (exec_mrcImpa _ _) (exec_mrcImpa _ _),
      exec_view_over_ten rfl ready hover (exec_mrcImattr _ _) (exec_mrcImattr _ _), List.forall_mem_nil _⟩

end Sys2Proof.Machine
end
